-- ==== Sys2Proof/Word.lean ====
section
/-! DEFINITION. The words of the block: bytes of a frame, 32-bit fields, and exact time. -/

namespace Sys2Proof

/-- One byte of a frame (30_encoding.md, R6). -/
abbrev Byte := BitVec 8

/-- One 32-bit field of a frame, or a 32-bit register (R34, R45). -/
abbrev Word := BitVec 32

/-- A duration, as a whole number of units of `POLL_INTERVAL / 2^150` = 0.1 s / 2^150.
In this unit both the half of every finite binary32 period (R19) and the poll interval (R136) are
whole, so the timing layer computes exactly. -/
abbrev Time := Int

end Sys2Proof
end

