-- ==== Sys2Proof/Config.lean ====
section
/-! DEFINITION. The implementation parameters of 00_scope.md R5 and the free values.
A parameter with a decided value is a definition; an open one is `opaque`, with no body, so that no
proof can see what it is. -/

namespace Sys2Proof

/-- `BOUNDARY_COMPARE` (R5, D5, U3): how a binary32 period is compared with the two bounds. -/
inductive BoundaryCompare where
  /-- with the bounds as exact rationals -/
  | exact
  /-- in binary32, with the bounds rounded to the nearest datum -/
  | f32
deriving DecidableEq, Repr

namespace Config

/-- `N_AXES` (R5, R11). -/
def nAxes : Nat := 3

/-- `PERIOD_MIN` = 27/10000 s, exclusive (R5). Log 25: the literal is unaudited. -/
def periodMin : Rat := { num := 27, den := 10000, reduced := by decide }

/-- `PERIOD_MAX` = 27/100 s, inclusive (R5). Log 25. -/
def periodMax : Rat := { num := 27, den := 100, reduced := by decide }

/-- The binary32 datum nearest 0.0027 (R52, U3), the lower bound under `BOUNDARY_COMPARE = f32`. -/
def periodMinF32 : Word := 0x3B30F27C#32

/-- The binary32 datum nearest 0.27 (R52, U3), the upper bound under `BOUNDARY_COMPARE = f32`. -/
def periodMaxF32 : Word := 0x3E8A3D71#32

/-- `BOUNDARY_COMPARE` (R5: decided `exact`, D5). Log 16. -/
def boundaryCompare : BoundaryCompare := .exact

/-- `POLL_INTERVAL` = 100 ms (R5, R136), in units of `Time`. Log 25. -/
def pollInterval : Time := 2 ^ 150

/-- How many units of `Time` make one second. -/
def unitsPerSecond : Nat := 10 * 2 ^ 150

/-- `TICK_DIVISOR` = 2: the step timer fires every period divided by this (R5, R134). -/
def tickDivisor : Nat := 2

/-- `COUNTER_WIDTH` = 32 bits (R5, R16, D6): the width of `Word`, which `steps[a]` has. -/
def counterWidth : Nat := 32

/-- `HANDLER_BOUND[fid]` (R5, D26): true for all eight. Log 18. -/
def handlerBound : Nat → Bool := fun _ => true

/-- `STOP_DISARMS_POLL` (R5, D10): false. Log 17. -/
def stopDisarmsPoll : Bool := false

/-- `SYSINFO_STR_LEN` = 32 bytes (R5, R47, D17). -/
def sysInfoStrLen : Nat := 32

/-- `STEPS_PER_ML` is open (R5, D7): numerator and denominator, each less one. Log 14. -/
opaque stepsPerMlRaw : Nat × Nat

/-- `STEPS_PER_ML`: any positive rational (R87: "`STEPS_PER_ML` must be positive"). Log 14. -/
def stepsPerMl : Rat := ((stepsPerMlRaw.1 : Rat) + 1) / ((stepsPerMlRaw.2 : Rat) + 1)

/-- `STATUS_ROUNDING` is open (R5, D22): what an exact quotient with no binary32 encoding of its
own rounds to. Log 13. -/
opaque roundInexact : Rat → Word

/-- The free value of `flowRate` where the spec states none (R79 case (c), U7): one for every draw.
Log 11. -/
opaque freeFlow : Nat → Word

/-- The free interval of a step timer started with a non-finite period, for which R19 states no
`val(period)` (no run reaches it). Log 12. -/
opaque freeInterval : Word → Time

/-- `FW_VERSION`, `DEVICE_ID`, `IP_ADDR`, `MAC_ADDR` (R5, R27): open strings, supplied by the
environment and never changing. A member `c` of `Fin 127` stands for the ASCII code `c + 1`, so no
character is the terminating zero. Log 15. -/
opaque fwVersionText : List (Fin 127)
@[inherit_doc fwVersionText] opaque deviceIdText : List (Fin 127)
@[inherit_doc fwVersionText] opaque ipAddrText : List (Fin 127)
@[inherit_doc fwVersionText] opaque macAddrText : List (Fin 127)

end Config
end Sys2Proof
end

