-- ==== Sys2Proof/Syntax.lean ====
section
/-! DEFINITION. The eight commands, the request frames that carry them, and what decoding a byte
stream can find. -/

namespace Sys2Proof

/-- The eight commands of 30_encoding.md R48, one constructor per row of the opcode table.
Operands are the 32-bit fields of the request (R46): `axis` keeps all its bits, since the decoder
does not reject a wrong axis (R51); `period` is a binary32 bit pattern (R52). -/
inductive Instr where
  | getStatus (axis : Word)
  | runStepper (axis : Word)
  | stopStepper (axis : Word)
  | returnHome (axis : Word)
  | runToNext (axis : Word)
  | runToPrevious (axis : Word)
  | getSysInfo
  | setConfig (axis period : Word)
deriving DecidableEq, Repr

/-- The request payload formats of R46: none, axis, axis and period. -/
inductive Format where
  | n
  | a
  | c
deriving DecidableEq, Repr

/-- The total length `packetLength` of a request of each format (R46). -/
def Format.length : Format → Nat
  | .n => 12
  | .a => 16
  | .c => 20

/-- The request format of each command (R48). -/
def Instr.format : Instr → Format
  | .getStatus _ => .a
  | .runStepper _ => .a
  | .stopStepper _ => .a
  | .returnHome _ => .a
  | .runToNext _ => .a
  | .runToPrevious _ => .a
  | .getSysInfo => .n
  | .setConfig _ _ => .c

/-- A request frame (R44, R45): the three header fields and the payload bytes. -/
structure Frame where
  packetLength : Word
  fid : Word
  error : Word
  payload : List Byte
deriving DecidableEq, Repr

/-- Why a frame has no meaning (R55). -/
inductive Malformed where
  /-- `packetLength` is below 12 -/
  | lengthBelowHeader (packetLength : Word)
  /-- `packetLength` is not the length of the format that `fid` selects -/
  | lengthMismatch (fid packetLength : Word)
deriving DecidableEq, Repr

/-- What the next bytes of the stream hold (R53 to R55). -/
inductive Decoded where
  /-- not yet a whole frame: the receive still waits -/
  | incomplete
  /-- a request of the table; `rest` is what follows the frame -/
  | command (i : Instr) (rest : List Byte)
  /-- a `fid` with no handler (R54) -/
  | unsupported (fid : Word) (rest : List Byte)
  /-- a frame with no meaning (R55) -/
  | malformed (why : Malformed)
deriving DecidableEq, Repr

end Sys2Proof
end

