-- ==== Sys2Proof/WellFormed.lean ====
section
/-! DEFINITION. Which request frames the spec admits (R55).
A term of `Instr` needs no check of its own: its operands are 32-bit fields, and every field value is
admitted (R51, R52). What can be ill-formed is the frame around it. -/

namespace Sys2Proof

/-- The header is inside the announced length (R45, R55: "`packetLength` is smaller than 12"). -/
def Frame.coversHeader (f : Frame) : Bool := decide (12 ≤ f.packetLength.toNat)

/-- The payload has the announced length (R45: "total frame length in bytes, including header"). -/
def Frame.payloadComplete (f : Frame) : Bool := f.payload.length + 12 == f.packetLength.toNat

/-- The announced length is that of the format the command has (R46, R55). -/
def Frame.fitsFormat (f : Frame) (fmt : Format) : Bool := f.packetLength.toNat == fmt.length

/-- A frame the spec admits: for a supported command its format is `some fmt`, for an unsupported
`fid` no format is selected (R55). -/
def Frame.wellFormed (f : Frame) (fmt : Option Format) : Bool :=
  f.coversHeader && f.payloadComplete && (fmt.elim true f.fitsFormat)

end Sys2Proof
end

