-- ==== Sys2Proof/Decode.lean ====
section
/-! DEFINITION. From the byte stream to a command (30_encoding.md R44 to R56), and the encoder.
Decoding is total on any bytes and names what it rejects. -/

namespace Sys2Proof

/-! ## Little-endian fields -/

/-- `u32le` of four bytes, the first the least significant (R6, R34). -/
def u32le (b0 b1 b2 b3 : Byte) : Word :=
  BitVec.ofNat 32 (b0.toNat + 256 * b1.toNat + 65536 * b2.toNat + 16777216 * b3.toNat)

/-- The field at byte offset `i` (R6: `u32le(bytes[i..i+4])`). -/
def u32At (bytes : List Byte) (i : Nat) : Word :=
  u32le (bytes.getD i 0) (bytes.getD (i + 1) 0) (bytes.getD (i + 2) 0) (bytes.getD (i + 3) 0)

/-- The four bytes of a field, least significant first (R34). -/
def wordBytes (w : Word) : List Byte :=
  [w.extractLsb' 0 8, w.extractLsb' 8 8, w.extractLsb' 16 8, w.extractLsb' 24 8]

/-! ## Reception -/

/-- Cut the first frame off the stream (R53): a 12-byte header, then `packetLength - 12` bytes.
`none` where the stream does not hold it whole; a `packetLength` below 12 gives an empty payload
here and is rejected by name in `decodeFrame`. -/
def cutFrame (bytes : List Byte) : Option (Frame × List Byte) :=
  if bytes.length < 12 then none
  else
    let len := u32At bytes 0
    if bytes.length < len.toNat then none
    else
      let body := bytes.drop 12
      some (⟨len, u32At bytes 4, u32At bytes 8, body.take (len.toNat - 12)⟩,
        body.drop (len.toNat - 12))

/-- The command that a `fid` selects, with the operand fields at payload offsets 0 and 4, that is
frame offsets 12 and 16 (R46, R48, R51, R52). -/
def instrOf (fid : Nat) (axis period : Word) : Option Instr :=
  match fid with
  | 0 => some (.getStatus axis)
  | 1 => some (.runStepper axis)
  | 2 => some (.stopStepper axis)
  | 3 => some (.returnHome axis)
  | 4 => some (.runToNext axis)
  | 5 => some (.runToPrevious axis)
  | 6 => some .getSysInfo
  | 7 => some (.setConfig axis period)
  | _ => none

/-- Dispatch on `fid` (R54, R55, R78), given which entries have a handler. The `error` field is not
examined (R56). -/
def decodeFrame (bound : Nat → Bool) (f : Frame) (rest : List Byte) : Decoded :=
  if f.coversHeader then
    match instrOf f.fid.toNat (u32At f.payload 0) (u32At f.payload 4) with
    | none => .unsupported f.fid rest
    | some i =>
      if bound f.fid.toNat then
        if f.fitsFormat i.format then .command i rest
        else .malformed (.lengthMismatch f.fid f.packetLength)
      else .unsupported f.fid rest
  else .malformed (.lengthBelowHeader f.packetLength)

/-- Decode the first frame of a stream, given which dispatch entries have a handler (D26). -/
def decodeWith (bound : Nat → Bool) (bytes : List Byte) : Decoded :=
  match cutFrame bytes with
  | none => .incomplete
  | some (f, rest) => decodeFrame bound f rest

/-- Decode the first frame of a stream, all eight handlers bound (R5). -/
def decode (bytes : List Byte) : Decoded := decodeWith Config.handlerBound bytes

/-! ## Encoding, from the tables of R45, R46 and R48 -/

/-- The command identifier (R48). -/
def Instr.fid : Instr → Word
  | .getStatus _ => 0
  | .runStepper _ => 1
  | .stopStepper _ => 2
  | .returnHome _ => 3
  | .runToNext _ => 4
  | .runToPrevious _ => 5
  | .getSysInfo => 6
  | .setConfig _ _ => 7

/-- The payload fields after the header (R46). -/
def Instr.payload : Instr → List Byte
  | .getStatus axis => wordBytes axis
  | .runStepper axis => wordBytes axis
  | .stopStepper axis => wordBytes axis
  | .returnHome axis => wordBytes axis
  | .runToNext axis => wordBytes axis
  | .runToPrevious axis => wordBytes axis
  | .getSysInfo => []
  | .setConfig axis period => wordBytes axis ++ wordBytes period

/-- The request frame of a command, with the given `error` field (R45, R46). -/
def Instr.frame (i : Instr) (error : Word) : Frame :=
  ⟨BitVec.ofNat 32 i.format.length, i.fid, error, i.payload⟩

/-- The bytes of a frame in transmission order (R45). -/
def Frame.bytes (f : Frame) : List Byte :=
  wordBytes f.packetLength ++ wordBytes f.fid ++ wordBytes f.error ++ f.payload

/-- The bytes of a command whose `error` field holds `error`; a well-behaved client sends 0 (R56). -/
def encodeWith (error : Word) (i : Instr) : List Byte := (i.frame error).bytes

/-- The bytes of a command. -/
def encode (i : Instr) : List Byte := encodeWith 0 i

/-! ## The opcode table's numbering of bits

The table numbers the bits of one word, the `fid` field (its `match_field`: "the u32 little-endian
word at byte offset 4 of the frame"). Log 6. -/

/-- The low `n` bytes of a number, least significant first. -/
def natBytes : Nat → Nat → List Byte
  | 0, _ => []
  | n + 1, w => BitVec.ofNat 8 w :: natBytes n (w / 256)

/-- The frame that a word of the opcode table stands for. Bit 0 is the least significant bit of the
`fid` field; later bits run on through the fields after it (`error`, `axis`, `period`); the
`packetLength` before it is the table's `length_bytes` for that `fid`, and 12 for a `fid` outside the
table. A word that holds a whole frame from its first byte on (96 bits or more, whose first field is
its own length) is taken as those bytes. Log 6. -/
def tableFrameBytes (nbits w : Nat) : List Byte :=
  let w := w % 2 ^ nbits
  if 96 ≤ nbits ∧ w % 2 ^ 32 = nbits / 8 then natBytes (nbits / 8) w
  else
    let len := match instrOf (w % 2 ^ 32) 0 0 with
      | some i => i.format.length
      | none => 12
    natBytes 4 len ++ natBytes (len - 4) w

/-- The instruction the decoder reads from a word of the opcode table. -/
def decodeTableWord (nbits w : Nat) : Option Instr :=
  match decode (tableFrameBytes nbits w) with
  | .command i _ => some i
  | .incomplete => none
  | .unsupported _ _ => none
  | .malformed _ => none

end Sys2Proof
end

