-- ==== Sys2Proof/Machine/State.lean ====
section
/-! DEFINITION. The state of the block (10_state.md), the transitions the environment may choose, the
replies, and why a step may be refused. -/

namespace Sys2Proof.Machine

/-! ## Values -/

/-- The three axes (R11). -/
inductive Axis where
  | x
  | y
  | z
deriving DecidableEq, Repr

/-- A level of a line: a sensor is asserted when it is low (R6, R25). -/
inductive Level where
  | low
  | high
deriving DecidableEq, Repr

/-- The direction output (R14); the level of its line is `Direction.level`. -/
inductive Direction where
  | forward
  | reverse
deriving DecidableEq, Repr

/-- AxisMotionState (R15). -/
inductive Motion where
  | idle
  | running
deriving DecidableEq, Repr

/-- BoardState (R20); `connected` is reserved and written by no rule. -/
inductive BoardState where
  | waitForConnection
  | connected
  | idle
  | pumpRunning
deriving DecidableEq, Repr

/-- The sequencer state (R21). -/
inductive SeqState where
  | preListen
  | listening
  | opened
deriving DecidableEq, Repr

/-- HomingMode (R23). -/
inductive HomingMode where
  | home
  | port
deriving DecidableEq, Repr

/-! ## Replies -/

/-- Reply status codes (R49). -/
inductive Status where
  | ok
  | invalidAxis
  | invalidParameter
  | flowNotConfigured
  | notSupported
deriving DecidableEq, Repr

/-- Reply payloads (R47): format K, S or I. `volume` and `flow` are binary32 bit patterns; the four
strings are the 32-byte fields as sent. -/
inductive Payload where
  | ack
  | status (motion : Motion) (board : BoardState) (home port : Level) (volume flow : Word)
  | sysInfo (fwVersion deviceId ipAddr macAddr : List Byte)
deriving DecidableEq, Repr

/-- A reply frame (R44, R57): the request's `fid`, the status, the payload. -/
structure Reply where
  fid : Word
  status : Status
  payload : Payload
deriving DecidableEq, Repr

/-! ## Transitions -/

/-- The transitions of R8, as the environment may ask for them. `send` is the client putting bytes on
the connection (R33 (b)): no transition of the block, it changes only what the next receive finds. -/
inductive Event where
  | listen
  | accept
  | disconnect
  | command
  | send (bytes : List Byte)
  | tick (a : Axis)
  | poll
  | reset
deriving DecidableEq, Repr

/-- One entry of the environment's script: how much time passed since the transition before, the
sensor levels at this instant (R43: a fresh draw each time), and the transition. -/
structure Stimulus where
  dt : Time
  home : Level
  port : Level
  event : Event
deriving DecidableEq, Repr

/-! ## State -/

/-- The per-axis state (R10, R12 to R19). -/
structure Channel where
  /-- the configured step period, a binary32 bit pattern (R12) -/
  period : Word
  configured : Bool
  dir : Direction
  motion : Motion
  steps : Word
  pin : Level
  /-- timing only (R19): the firing interval of the armed step timer -/
  halfLatch : Time
  /-- timing only (R112, R134): the time left until the armed step timer fires -/
  tickIn : Time
deriving DecidableEq, Repr

/-- The state. First the block's own (R10; the session registers keep their values while no session exists,
log 28), then the phase of the poll timer, then the model's own
fields: the environment (inputs, streams, script) and the count of free values drawn. -/
structure State where
  x : Channel
  y : Channel
  z : Channel
  board : BoardState
  seq : SeqState
  pollArmed : Bool
  sessAxis : Axis
  sessMode : HomingMode
  prevPort : Level
  /-- timing only (R112, R136): the time left until the armed poll timer fires -/
  pollIn : Time
  /-- the present level of `home_in` (R25) -/
  homeIn : Level
  /-- the present level of `port_in` (R25) -/
  portIn : Level
  /-- what the client has sent and the block has not read (R33 (b)) -/
  rx : List Byte
  /-- the replies the block has written, oldest first -/
  tx : List Reply
  /-- what the environment chooses next, first entry first (R8, R114); log 1 -/
  script : List Stimulus
  /-- how many free values have been drawn; log 11 -/
  draws : Nat
deriving DecidableEq, Repr

/-- A channel after reset (R117). `period`, `halfLatch` and `tickIn` are unwritten in the spec: the 0
is the model's (log 7, 8). -/
def Channel.reset : Channel where
  period := 0
  configured := false
  dir := .forward
  motion := .idle
  steps := 0
  pin := .low
  halfLatch := 0
  tickIn := 0

/-- The state right after `RESET` (R117). The session registers are unspecified there: X, HOME and low
are the model's (log 9); so are the levels of the inputs (log 4). -/
def State.reset : State where
  x := Channel.reset
  y := Channel.reset
  z := Channel.reset
  board := .waitForConnection
  seq := .preListen
  pollArmed := false
  sessAxis := .x
  sessMode := .home
  prevPort := .low
  pollIn := 0
  homeIn := .high
  portIn := .high
  rx := []
  tx := []
  script := []
  draws := 0

/-! ## Stops -/

/-- Nothing makes the block stop: "no error is fatal to the process" (R103). Log 27. -/
inductive Fault where
deriving DecidableEq, Repr

/-- Why a step has no next state. All are safe: the model says nothing where the spec gives no
transition. -/
inductive Refusal where
  /-- an instruction without a meaning; no arm of `exec` answers with it -/
  | notModelled (mnemonic : String)
  /-- the step's `command`: a frame outside the admitted input (R55); log 21 -/
  | malformedFrame (why : Malformed)
  /-- the script asks for `command` while the stream holds no whole frame: not enabled (R92); log 2 -/
  | noWholeFrame
  /-- the script asks for `command`, `send` or `disconnect` while `seq` is not OPEN: not enabled
  (R92, R93); log 2 -/
  | notOpen
  /-- the script asks for `listen` while `seq` is not PRE_LISTEN: not enabled (R90); log 2 -/
  | notPreListen
  /-- the script asks for `accept` while `seq` is not LISTENING: not enabled (R91); log 2 -/
  | notListening
  /-- the script asks for a tick of an axis that is not RUNNING: not enabled (R63); log 2 -/
  | stepTimerDisarmed (a : Axis)
  /-- the script asks for a poll while `pollArmed` is 0: not enabled (R70); log 2 -/
  | pollTimerDisarmed
  /-- the timed step (`timedStep`) only: the transition is not at an instant the timers allow
  (R134 to R137); log 20 -/
  | offSchedule
deriving DecidableEq, Repr

/-- What a step or a meaning answers. -/
abbrev Result := Host.Outcome State Fault Refusal

end Sys2Proof.Machine
end

