-- ==== Sys2Proof/Machine/Operands.lean ====
section
/-! DEFINITION. The two operand forms: the axis field (R51) and the period field (R52), with the
binary32 datum it holds. -/

namespace Sys2Proof.Machine

/-! ## The axis operand -/

/-- The number of an axis (R11, R50). -/
def Axis.index : Axis → Nat
  | .x => 0
  | .y => 1
  | .z => 2

/-- The axis a field names; `none` for every value but 0, 1 and 2 (R51: no masking of high bits). -/
def axisOf (w : Word) : Option Axis :=
  match w.toNat with
  | 0 => some .x
  | 1 => some .y
  | 2 => some .z
  | _ => none

/-! ## The period operand: a binary32 datum -/

/-- The biased exponent field (R52). -/
def expField (p : Word) : Nat := (p.extractLsb' 23 8).toNat

/-- The fraction field (R52). -/
def fracField (p : Word) : Nat := (p.extractLsb' 0 23).toNat

/-- The sign bit: negative data, and -0, have it set (R52). -/
def signBit (p : Word) : Bool := p.getLsbD 31

/-- Not NaN and not an infinity. -/
def isFinite (p : Word) : Bool := decide (expField p < 255)

/-- The magnitude of a finite datum, in units of 2^-149. -/
def magnitude (p : Word) : Nat :=
  if expField p = 0 then fracField p else (2 ^ 23 + fracField p) * 2 ^ (expField p - 1)

/-- The signed value of a finite datum, in units of 2^-149. -/
def scaledValue (p : Word) : Int :=
  if signBit p then -(magnitude p : Int) else (magnitude p : Int)

/-- `val(p)` of a finite datum (R6): its exact rational value. -/
def val (p : Word) : Rat := (scaledValue p : Rat) / ((2 ^ 149 : Nat) : Rat)

/-- `ValidPeriod` (R52) under either reading of `BOUNDARY_COMPARE` (U3): finite, above the lower bound
and not above the upper one. Both sides of each comparison are multiplied out, so that the comparison
is between whole numbers. -/
def validPeriodWith (cmp : BoundaryCompare) (p : Word) : Bool :=
  isFinite p &&
    match cmp with
    | .exact =>
      decide (Config.periodMin.num * 2 ^ 149 < scaledValue p * Config.periodMin.den) &&
        decide (scaledValue p * Config.periodMax.den ≤ Config.periodMax.num * 2 ^ 149)
    | .f32 =>
      decide (scaledValue Config.periodMinF32 < scaledValue p) &&
        decide (scaledValue p ≤ scaledValue Config.periodMaxF32)

/-- `ValidPeriod` (R52) under the configured comparison (R5, D5: exact). -/
def validPeriod (p : Word) : Bool := validPeriodWith Config.boundaryCompare p

/-- The firing interval of a step timer started with period `p`: `val(p) / 2` (R19, R61), in units of
`Time`. One unit of 2^-149 s is 20 units of `Time`, and half of that is 10. For a non-finite datum the
spec states no value: a free one (log 12). -/
def halfInterval (p : Word) : Time :=
  if isFinite p then scaledValue p * 20 / Config.tickDivisor else Config.freeInterval p

end Sys2Proof.Machine
end

