-- ==== Sys2Proof/Machine/Ops.lean ====
section
/-! DEFINITION. The named operations over the state: access to a channel, the internal operations of
40_generator.md and 41_detector.md, and ending a command with a reply. -/

namespace Sys2Proof.Machine

/-! ## Access to the per-axis registers (R7: the register read and write of element `a`) -/

/-- The registers of axis `a`. -/
def State.chan (s : State) (a : Axis) : Channel :=
  match a with
  | .x => s.x
  | .y => s.y
  | .z => s.z

/-- Write the registers of axis `a`. -/
def State.setChan (s : State) (a : Axis) (c : Channel) : State :=
  match a with
  | .x => { s with x := c }
  | .y => { s with y := c }
  | .z => { s with z := c }

/-- `dir[a] <- d`. -/
def State.setDir (s : State) (a : Axis) (d : Direction) : State :=
  s.setChan a { s.chan a with dir := d }

/-- `steps[a] <- n`. -/
def State.setSteps (s : State) (a : Axis) (n : Word) : State :=
  s.setChan a { s.chan a with steps := n }

/-! ## The generator's internal operations -/

/-- `GenConfigure(a, p)` (R60). -/
def genConfigure (a : Axis) (p : Word) (s : State) : State :=
  s.setChan a { s.chan a with period := p, configured := true }

/-- `GenRun(a)` (R61): the result and the state after. The step timer starts one full interval before
its first firing (R137). -/
def genRun (a : Axis) (s : State) : Bool × State :=
  let c := s.chan a
  if c.configured then
    match c.motion with
    | .running => (true, s)
    | .idle =>
      (true, s.setChan a
        { c with
          steps := 0
          halfLatch := halfInterval c.period
          tickIn := halfInterval c.period
          motion := .running })
  else (false, s)

/-- `GenStop(a)` (R62). -/
def genStop (a : Axis) (s : State) : State :=
  s.setChan a { s.chan a with motion := .idle, pin := .low }

/-! ## The detector's internal operations -/

/-- `SampleHome()` (R43): the level at the instant of the transition. -/
def State.sampleHome (s : State) : Level := s.homeIn

/-- `SamplePort()` (R43). -/
def State.samplePort (s : State) : Level := s.portIn

/-- `SessionArm(a, m)` (R69): create or replace the session, and restart the poll interval (R137). -/
def sessionArm (a : Axis) (m : HomingMode) (s : State) : State :=
  { s with
    sessAxis := a
    sessMode := m
    prevPort := match m with
      | .home => s.prevPort
      | .port => s.samplePort
    pollArmed := true
    pollIn := Config.pollInterval }

/-- What `STOP_STEPPER` does to the poll timer itself: nothing, unless `STOP_DISARMS_POLL` is true, in
which case it ends the session of the stopped axis (C3, D10, U21; log 17). -/
def disarmOnStop (disarms : Bool) (a : Axis) (s : State) : State :=
  if disarms && decide (s.sessAxis = a) then { s with pollArmed := false } else s

/-! ## Ending a command -/

/-- Emit a reply (R57): the request's `fid`, the status and the payload. -/
def State.reply (s : State) (fid : Word) (status : Status) (payload : Payload) : State :=
  { s with tx := s.tx ++ [⟨fid, status, payload⟩] }

/-- `reply(OK)`: an acknowledgement (R57). -/
def State.ack (s : State) (fid : Word) : State := s.reply fid .ok .ack

/-- Raise a synchronous error (R97: "`raise X` is `reply(X)`"): the command ends with the code in the
reply and no payload, and nothing else is recorded or changed. -/
def State.raise (s : State) (fid : Word) (error : Status) : State := s.reply fid error .ack

end Sys2Proof.Machine
end

