-- ==== Sys2Proof/Machine/ConfigCommands.lean ====
section
/-! DEFINITION. `SET_CONFIG` (R80). -/

namespace Sys2Proof.Machine

/-- `SET_CONFIG axis, period` (R80): the period is checked first, then the axis (R108). -/
def execSetConfig (axis period : Word) (s : State) : Result :=
  if validPeriod period then
    match axisOf axis with
    | none => .next (s.raise 7 .invalidAxis)
    | some a => .next ((genConfigure a period s).ack 7)
  else .next (s.raise 7 .invalidParameter)

end Sys2Proof.Machine
end

