-- ==== Sys2Proof/Machine/Quantities.lean ====
section
/-! DEFINITION. The two derived quantities of the status reply (R87) and their rounding. -/

namespace Sys2Proof.Machine

/-! ## Rounding to binary32 -/

/-- Round `n / d` to the nearest whole number, ties to even (`d` is not 0). -/
def divNearestEven (n d : Nat) : Nat :=
  let q := n / d
  let r := n % d
  if d < 2 * r ∨ (2 * r = d ∧ q % 2 = 1) then q + 1 else q

/-- `2 ^ e ≤ n / d`. -/
def powerAtMost (e : Int) (n d : Nat) : Bool :=
  if 0 ≤ e then decide (d * 2 ^ e.toNat ≤ n) else decide (d ≤ n * 2 ^ (-e).toNat)

/-- The greatest `e` with `2 ^ e ≤ n / d`, for positive `n` and `d`. -/
def floorLog2 (n d : Nat) : Int :=
  let e : Int := (Nat.log2 n : Int) - (Nat.log2 d : Int)
  if powerAtMost e n d then e else e - 1

/-- The bit pattern, sign bit clear, of `n / d` rounded to binary32, nearest, ties to even; an infinity
where that overflows. The significand is counted in units of `2 ^ k`, with `k = -149` for subnormals;
adding it to the shifted exponent lets a carry run into the exponent field. -/
def roundMagnitude (n d : Nat) : Nat :=
  if n = 0 then 0
  else
    let k : Int := max (floorLog2 n d - 23) (-149)
    let m := if 0 ≤ k then divNearestEven n (d * 2 ^ k.toNat) else divNearestEven (n * 2 ^ (-k).toNat) d
    min ((k + 149).toNat * 2 ^ 23 + m) 0x7F800000

/-- Round to nearest, ties to even, of an exact rational: the default `STATUS_ROUNDING` (R5, D22). A
zero is +0. -/
def roundNearestEven (q : Rat) : Word :=
  BitVec.ofNat 32 (roundMagnitude q.num.natAbs q.den + if q.num < 0 then 2 ^ 31 else 0)

/-- The encoding of `q` where some finite datum is exactly `q`. -/
def exactEncoding (q : Rat) : Option Word :=
  let w := roundNearestEven q
  if isFinite w && decide (val w = q) then some w else none

/-- `Round`, that is `STATUS_ROUNDING`: a function of the exact quotient alone, which returns an
exactly representable quotient unchanged (R87, U13); on the others it is uninterpreted. Log 13. -/
def roundStatus (q : Rat) : Word := (exactEncoding q).getD (Config.roundInexact q)

/-! ## Volume and Flow -/

/-- The exact quotient `n / STEPS_PER_ML` (R87), in millilitres. -/
def volumeQuotient (stepsPerMl : Rat) (n : Word) : Rat := (n.toNat : Rat) / stepsPerMl

/-- The exact quotient `(60 / val(P)) / STEPS_PER_ML` (R87), in millilitres per minute. -/
def flowQuotient (stepsPerMl : Rat) (p : Word) : Rat := (60 / val p) / stepsPerMl

/-- `Volume(n)` (R87). -/
def volume (n : Word) : Word := roundStatus (volumeQuotient Config.stepsPerMl n)

/-- `Flow(P)` (R87). -/
def flow (p : Word) : Word := roundStatus (flowQuotient Config.stepsPerMl p)

/-- The period has a flow: a finite datum other than zero. A configured period always has one (R87: "No
division by zero can occur"). -/
def hasFlow (p : Word) : Bool := isFinite p && decide (scaledValue p ≠ 0)

end Sys2Proof.Machine
end

