-- ==== Sys2Proof/Machine/Flags.lean ====
section
/-! DEFINITION. The derived signals and conditions: timer arm bits, output lines, `AllIdle`, `AtHome`,
the edge conditions, and the flow-rate field of the status reply. -/

namespace Sys2Proof.Machine

/-- `stepTimerArmed[a]` (R18): the derived signal `motion[a] = RUNNING`. -/
def State.stepTimerArmed (s : State) (a : Axis) : Bool := decide ((s.chan a).motion = .running)

/-- `step_out[a]` (R26). -/
def State.stepOut (s : State) (a : Axis) : Level := (s.chan a).pin

/-- The level of a direction line: forward is 0, low, and reverse 1, high (R14, R50). -/
def Direction.level : Direction → Level
  | .forward => .low
  | .reverse => .high

/-- `dir_out[a]` (R26): the level of the line. -/
def State.dirOut (s : State) (a : Axis) : Level := (s.chan a).dir.level

/-- `AllIdle()` (R7). -/
def State.allIdle (s : State) : Bool :=
  decide (s.x.motion = .idle ∧ s.y.motion = .idle ∧ s.z.motion = .idle)

/-- `AtHome(h, p)` (R68): both sensors asserted, that is low, at one instant. -/
def atHome (h p : Level) : Bool := decide (h = .low ∧ p = .low)

/-- The edge of mode PORT (R73): the port sensor was high and reads low. -/
def portEdge (prev p : Level) : Bool := decide (prev = .high ∧ p = .low)

/-- `if AllIdle(): board <- IDLE` (R74, R82). -/
def boardIdleIfAllIdle (s : State) : State :=
  if s.allIdle then { s with board := .idle } else s

/-- The flow-rate field of `GET_STATUS` (R79): +0 unless the board is PUMP_RUNNING (case a); then the
formula for a configured axis (case b); for an axis never configured, a free value (case c, log 11),
and the same for a period without a flow, which no run configures (log 12). -/
def flowField (a : Axis) (s : State) : Word × State :=
  if s.board = .pumpRunning then
    if (s.chan a).configured && hasFlow (s.chan a).period then (flow (s.chan a).period, s)
    else (Config.freeFlow s.draws, { s with draws := s.draws + 1 })
  else (0, s)

end Sys2Proof.Machine
end

