-- ==== Sys2Proof/Machine/HomingCommands.lean ====
section
/-! DEFINITION. The homing-class commands: `RETURN_HOME` (R83), `RUN_TO_NEXT` (R84),
`RUN_TO_PREVIOUS` (R85). -/

namespace Sys2Proof.Machine

/-- The tail the three commands share: run the axis; on success arm the session and set the board; on
failure reply `FLOW_NOT_CONFIGURED` from the state `revert` gives. -/
def runAndArm (fid : Word) (a : Axis) (m : HomingMode) (revert : State → State) (s : State) : Result :=
  match genRun a s with
  | (true, s') => .next ({ sessionArm a m s' with board := .pumpRunning }.ack fid)
  | (false, s') => .next ((revert s').raise fid .flowNotConfigured)

/-- `RETURN_HOME axis` (R83): a complete no-op when at home (R131). -/
def execReturnHome (axis : Word) (s : State) : Result :=
  match axisOf axis with
  | none => .next (s.raise 3 .invalidAxis)
  | some a =>
    if atHome s.sampleHome s.samplePort then .next (s.ack 3)
    else runAndArm 3 a .home (fun t => t.setDir a .forward) (s.setDir a .reverse)

/-- `RUN_TO_NEXT axis` (R84): the direction is not written (D30). -/
def execRunToNext (axis : Word) (s : State) : Result :=
  match axisOf axis with
  | none => .next (s.raise 4 .invalidAxis)
  | some a => runAndArm 4 a .port id s

/-- `RUN_TO_PREVIOUS axis` (R85). -/
def execRunToPrevious (axis : Word) (s : State) : Result :=
  match axisOf axis with
  | none => .next (s.raise 5 .invalidAxis)
  | some a => runAndArm 5 a .port (fun t => t.setDir a .forward) (s.setDir a .reverse)

end Sys2Proof.Machine
end

