-- ==== Sys2Proof/Machine/MotionCommands.lean ====
section
/-! DEFINITION. `RUN_STEPPER` (R81) and `STOP_STEPPER` (R82). -/

namespace Sys2Proof.Machine

/-- `RUN_STEPPER axis` (R81). -/
def execRunStepper (axis : Word) (s : State) : Result :=
  match axisOf axis with
  | none => .next (s.raise 1 .invalidAxis)
  | some a =>
    match genRun a s with
    | (true, s') => .next ({ s' with board := .pumpRunning }.ack 1)
    | (false, s') => .next (s'.raise 1 .flowNotConfigured)

/-- `STOP_STEPPER axis` (R82). The counter of the addressed axis is zeroed last. -/
def execStopStepper (axis : Word) (s : State) : Result :=
  match axisOf axis with
  | none => .next (s.raise 2 .invalidAxis)
  | some a =>
    let stopped := boardIdleIfAllIdle ((genStop a s).setDir a .forward)
    .next ((disarmOnStop Config.stopDisarmsPoll a (stopped.setSteps a 0)).ack 2)

end Sys2Proof.Machine
end

