-- ==== Sys2Proof/Machine/Reply.lean ====
section
/-! DEFINITION. The numeric codes (R49, R50), the bytes of a reply frame (R45, R47, R57) and the sysinfo
fields. The code of an axis is `Axis.index`. -/

namespace Sys2Proof.Machine

/-! ## Codes (R49, R50) -/

/-- The reply status codes (R49). -/
def Status.code : Status → Word
  | .ok => 0
  | .invalidAxis => 1
  | .invalidParameter => 2
  | .flowNotConfigured => 3
  | .notSupported => 4

/-- AxisMotionState in a frame (R50). -/
def Motion.code : Motion → Word
  | .idle => 0
  | .running => 1

/-- BoardState in a frame (R50). -/
def BoardState.code : BoardState → Word
  | .waitForConnection => 0
  | .connected => 1
  | .idle => 2
  | .pumpRunning => 3

/-- A sensor level in a frame (R50). -/
def Level.code : Level → Word
  | .low => 0
  | .high => 1

/-- HomingMode in the state tables, in no frame (R23, R50). -/
def HomingMode.code : HomingMode → Word
  | .home => 0
  | .port => 1

/-- The direction in the state tables, in no frame (R14, R50). -/
def Direction.code : Direction → Word
  | .forward => 0
  | .reverse => 1

/-! ## Sysinfo strings (R47) -/

/-- A sysinfo field: an ASCII string of at most 31 characters, terminated and padded with zero bytes to
`SYSINFO_STR_LEN`. A longer string is outside the admitted configuration (U20), so the text is cut
there. Log 15. -/
def sysInfoField (text : List (Fin 127)) : List Byte :=
  let chars := (text.take (Config.sysInfoStrLen - 1)).map fun c => BitVec.ofNat 8 (c.val + 1)
  chars ++ List.replicate (Config.sysInfoStrLen - chars.length) 0

/-! ## Frames -/

/-- The payload bytes (R47). -/
def Payload.bytes : Payload → List Byte
  | .ack => []
  | .status m b h p v f =>
    wordBytes m.code ++ wordBytes b.code ++ wordBytes h.code ++ wordBytes p.code ++ wordBytes v ++
      wordBytes f
  | .sysInfo fw dev ip mac => fw ++ dev ++ ip ++ mac

/-- The bytes of a reply frame in transmission order (R45, R57): `packetLength` is the total length. -/
def encodeReply (r : Reply) : List Byte :=
  wordBytes (BitVec.ofNat 32 (12 + r.payload.bytes.length)) ++ wordBytes r.fid ++
    wordBytes r.status.code ++ r.payload.bytes

/-- The bytes the block has written on the connection (R33 (b)): its reply frames, oldest first. -/
def State.sentBytes (s : State) : List Byte := s.tx.flatMap encodeReply

end Sys2Proof.Machine
end

