-- ==== Sys2Proof/Machine/StatusCommands.lean ====
section
/-! DEFINITION. The two commands that only read: `GET_STATUS` (R79) and `GET_SYS_INFO` (R86). -/

namespace Sys2Proof.Machine

/-- `GET_STATUS axis` (R79). -/
def execGetStatus (axis : Word) (s : State) : Result :=
  match axisOf axis with
  | none => .next (s.raise 0 .invalidAxis)
  | some a =>
    let (rate, s') := flowField a s
    .next (s'.reply 0 .ok
      (.status (s.chan a).motion s.board s.sampleHome s.samplePort (volume (s.chan a).steps) rate))

/-- `GET_SYS_INFO` (R86). -/
def execGetSysInfo (s : State) : Result :=
  .next (s.reply 6 .ok
    (.sysInfo (sysInfoField Config.fwVersionText) (sysInfoField Config.deviceIdText)
      (sysInfoField Config.ipAddrText) (sysInfoField Config.macAddrText)))

end Sys2Proof.Machine
end

