-- ==== Sys2Proof/Machine/Dispatch.lean ====
section
/-! DEFINITION. The dispatch table (42_commands.md R78): one arm per command. -/

namespace Sys2Proof.Machine

/-- The rule of each command (R79 to R86), on a frame already received. That a command is enabled only
while `seq` is OPEN (R92) is checked where the frame is received, in `receiveCommand`. -/
def exec (i : Instr) (s : State) : Host.Outcome State Fault Refusal :=
  match i with
  | .getStatus axis => Sys2Proof.Machine.execGetStatus axis s
  | .runStepper axis => Sys2Proof.Machine.execRunStepper axis s
  | .stopStepper axis => Sys2Proof.Machine.execStopStepper axis s
  | .returnHome axis => Sys2Proof.Machine.execReturnHome axis s
  | .runToNext axis => Sys2Proof.Machine.execRunToNext axis s
  | .runToPrevious axis => Sys2Proof.Machine.execRunToPrevious axis s
  | .getSysInfo => Sys2Proof.Machine.execGetSysInfo s
  | .setConfig axis period => Sys2Proof.Machine.execSetConfig axis period s

end Sys2Proof.Machine
end

