-- ==== Sys2Proof/Machine/Sequencer.lean ====
section
/-! DEFINITION. The sequencer events (R90, R91, R93), receiving and dispatching a command (R78, R92), the
client's bytes, and `RESET` (R116). -/

namespace Sys2Proof.Machine

/-- `LISTEN` (R90). -/
def doListen (s : State) : Result :=
  match s.seq with
  | .preListen => .next { s with board := .waitForConnection, seq := .listening }
  | .listening => .refused .notPreListen
  | .opened => .refused .notPreListen

/-- `ACCEPT` (R91): the board is written whatever the axes do (D28). -/
def doAccept (s : State) : Result :=
  match s.seq with
  | .listening => .next { s with board := .idle, seq := .opened }
  | .preListen => .refused .notListening
  | .opened => .refused .notListening

/-- `DISCONNECT` (R93): only `board` and `seq` are written; what the client had sent and the block had
not read is dropped with the connection (R53, R102). -/
def doDisconnect (s : State) : Result :=
  match s.seq with
  | .opened => .next { s with board := .waitForConnection, seq := .preListen, rx := [] }
  | .preListen => .refused .notOpen
  | .listening => .refused .notOpen

/-- The client puts bytes on the open connection (R33 (b)); log 5. -/
def doSend (bytes : List Byte) (s : State) : Result :=
  match s.seq with
  | .opened => .next { s with rx := s.rx ++ bytes }
  | .preListen => .refused .notOpen
  | .listening => .refused .notOpen

/-- Take the next frame off the stream and dispatch it (R53, R78): a `fid` with no handler is answered
NOT_SUPPORTED (R54, R101). -/
def dispatchFrame (s : State) : Result :=
  match decode s.rx with
  | .incomplete => .refused .noWholeFrame
  | .malformed why => .refused (.malformedFrame why)
  | .unsupported fid rest => .next ({ s with rx := rest }.raise fid .notSupported)
  | .command i rest => exec i { s with rx := rest }

/-- `CMD(frame)` (R78, R92): enabled when `seq` is OPEN and a whole frame has been delivered. -/
def receiveCommand (s : State) : Result :=
  match s.seq with
  | .opened => dispatchFrame s
  | .preListen => .refused .notOpen
  | .listening => .refused .notOpen

/-- `RESET` (R116): every element of the block at its reset value. The connection goes with it; the
environment's script, the levels of the inputs, the record of replies and the count of draws are not
state of the block and stay (log 22). -/
def doReset (s : State) : Result :=
  .next { State.reset with
    homeIn := s.homeIn, portIn := s.portIn, tx := s.tx, script := s.script, draws := s.draws }

end Sys2Proof.Machine
end

