-- ==== Sys2Proof/Machine/Timers.lean ====
section
/-! DEFINITION. The timer events `TICK(a)` (R63) and `POLL` (R70 to R74), and the passing of time. -/

namespace Sys2Proof.Machine

/-! ## Time (timing layer) -/

/-- `dt` passes on the step timer of one channel, if it is armed (R134). -/
def Channel.advance (c : Channel) (dt : Time) : Channel :=
  match c.motion with
  | .running => { c with tickIn := c.tickIn - dt }
  | .idle => c

/-- `dt` passes on the armed timers (R134, R136): nothing else changes. -/
def State.advance (s : State) (dt : Time) : State :=
  { s with
    x := s.x.advance dt
    y := s.y.advance dt
    z := s.z.advance dt
    pollIn := if s.pollArmed then s.pollIn - dt else s.pollIn }

/-! ## TICK -/

/-- One firing of an armed step timer (R63): toggle the line, and count a rising edge (R66: modulo
2^32). The next firing is one interval later (R134). -/
def Channel.tick (c : Channel) : Channel :=
  match c.pin with
  | .low => { c with pin := .high, steps := c.steps + 1, tickIn := c.halfLatch }
  | .high => { c with pin := .low, tickIn := c.halfLatch }

/-- `TICK(a)` (R63): enabled exactly when `motion[a]` is RUNNING. -/
def doTick (a : Axis) (s : State) : Result :=
  if s.stepTimerArmed a then .next (s.setChan a (s.chan a).tick)
  else .refused (.stepTimerDisarmed a)

/-! ## POLL -/

/-- The detection of one poll (R72, R73): is it an edge, and what `prevPort` becomes. -/
def detect (s : State) : Bool × Level :=
  match s.sessMode with
  | .home => (atHome s.sampleHome s.samplePort, s.prevPort)
  | .port => (portEdge s.prevPort s.samplePort, s.samplePort)

/-- The edge action on the target `t` (R74). -/
def edgeAction (t : Axis) (s : State) : State :=
  boardIdleIfAllIdle ((genStop t { s with pollArmed := false }).setDir t .forward)

/-- `POLL` (R70): enabled exactly when `pollArmed` is 1. The target-running check comes first and
suppresses the rest (R71, D11). The next firing is one poll interval later (R136). A poll that disarms leaves
`sessAxis` and `sessMode` as they were; R23 calls them unspecified then: the model's choice (log 28). -/
def doPoll (s : State) : Result :=
  if s.pollArmed then
    let t := s.sessAxis
    match (s.chan t).motion with
    | .idle => .next { s with pollArmed := false }
    | .running =>
      let (edge, prev) := detect s
      let s := { s with prevPort := prev, pollIn := Config.pollInterval }
      .next (if edge then edgeAction t s else s)
  else .refused .pollTimerDisarmed

end Sys2Proof.Machine
end

