-- ==== Sys2Proof/Machine/Perform.lean ====
section
/-! DEFINITION. One transition of the labelled transition system (R8), and the placing of a command where
the next step receives it. -/

namespace Sys2Proof.Machine

/-- Perform one transition, or refuse it by name where it is not enabled (R8, R114). -/
def perform (e : Event) (s : State) : Result :=
  match e with
  | .listen => doListen s
  | .accept => doAccept s
  | .disconnect => doDisconnect s
  | .command => receiveCommand s
  | .send bytes => doSend bytes s
  | .tick a => doTick a s
  | .poll => doPoll s
  | .reset => doReset s

/-- The state in which the transition of stimulus `e` takes place: its time has passed, the sensor
inputs are at its levels, and `rest` is left of the script. -/
def State.enter (s : State) (e : Stimulus) (rest : List Stimulus) : State :=
  { s.advance e.dt with homeIn := e.home, portIn := e.port, script := rest }

/-- The environment chooses nothing: the block listens by itself after reset or disconnect (R89, R118),
and otherwise waits (R92, R96). Log 3. -/
def idleStep (s : State) : Result :=
  match s.seq with
  | .preListen => doListen s
  | .listening => .next s
  | .opened => .next s

/-- Put a request frame at the head of the stream and its reception at the head of the script, on an
open connection. Log 6. -/
def State.placeRequest (s : State) (frame : List Byte) : State :=
  { s with
    seq := .opened
    rx := frame ++ s.rx
    script := ⟨0, s.homeIn, s.portIn, .command⟩ :: s.script }

end Sys2Proof.Machine
end

