-- ==== Sys2Proof/Machine/Step.lean ====
section
/-! DEFINITION. One step: the next transition the environment's script chooses (R8). -/

namespace Sys2Proof.Machine

/-- One step. Log 1. -/
def step (s : State) : Host.Outcome State Fault Refusal :=
  match s.script with
  | [] => idleStep s
  | e :: rest => perform e.event (s.enter e rest)

/-- The state with an instruction, numbered as the opcode table numbers its bits, placed where the next
step receives it. Log 6. -/
def State.withFetchWord (s : State) (nbits w : Nat) : State := s.placeRequest (tableFrameBytes nbits w)

end Sys2Proof.Machine
end

