-- ==== Sys2Proof/Machine/Timing.lean ====
section
/-! DEFINITION. The timing layer (R134 to R137): which stimuli occur at an instant the timers allow. No
functional rule depends on it (R140); `step` admits the others too. Log 20. -/

namespace Sys2Proof.Machine

/-- `dt` does not run past the firing of the armed step timer of axis `a` (R134). -/
def State.beforeTick (s : State) (dt : Time) (a : Axis) : Bool :=
  !s.stepTimerArmed a || decide (dt ≤ (s.chan a).tickIn)

/-- `dt` does not run past the firing of the armed poll timer (R136). -/
def State.beforePoll (s : State) (dt : Time) : Bool := !s.pollArmed || decide (dt ≤ s.pollIn)

/-- The event is a firing only at the very end of its timer's interval (R134, R136). -/
def State.due (s : State) (dt : Time) : Event → Bool
  | .tick a => decide (dt = (s.chan a).tickIn)
  | .poll => decide (dt = s.pollIn)
  | .listen => true
  | .accept => true
  | .disconnect => true
  | .command => true
  | .send _ => true
  | .reset => true

/-- The stimulus is on schedule: time does not run back, no armed timer is overrun, and a firing is due.
Transitions at one instant may come in any order (R107). -/
def State.admits (s : State) (e : Stimulus) : Bool :=
  decide (0 ≤ e.dt) && s.beforeTick e.dt .x && s.beforeTick e.dt .y && s.beforeTick e.dt .z &&
    s.beforePoll e.dt && s.due e.dt e.event

/-- The next stimulus of the script, if any, is on schedule. -/
def State.onTime (s : State) : Bool :=
  match s.script with
  | [] => true
  | e :: _ => s.admits e

/-- The step of the timed model: the step, where the script is on schedule. -/
def timedStep (s : State) : Result := if s.onTime then step s else .refused .offSchedule

end Sys2Proof.Machine
end

