-- ==== Sys2Proof/Safety.lean ====
section
/-! DEFINITION. What claims are stated in: which transition is enabled, the invariants of the block, the
timing invariant, and what is left of a state when the timing layer is erased. -/

namespace Sys2Proof.Machine

/-! ## Enabling (R8, R114) -/

/-- The stream holds one whole frame that the spec admits (R53, R55, R92). -/
def State.requestWaiting (s : State) : Bool :=
  match cutFrame s.rx with
  | none => false
  | some (f, _) =>
    f.wellFormed
      (if Config.handlerBound f.fid.toNat then (instrOf f.fid.toNat 0 0).map Instr.format else none)

/-- The enabling conditions of the transitions (R63, R70, R90 to R93, R114, R116). -/
def State.enabled (s : State) : Event → Bool
  | .listen => s.seq == .preListen
  | .accept => s.seq == .listening
  | .disconnect => s.seq == .opened
  | .command => s.seq == .opened && s.requestWaiting
  | .send _ => s.seq == .opened
  | .tick a => (s.chan a).motion == .running
  | .poll => s.pollArmed
  | .reset => true

/-! ## Invariants (R28) -/

/-- What holds of one axis in every state a run reaches: an idle axis has its line low (R28 (e)) and its
direction forward (R83); a running one is configured (R28 (f)) and fires every more than 1.35 ms and at
most 135 ms (R112); a configured one holds a valid period (R28 (b)). -/
abbrev Channel.Inv (c : Channel) : Prop :=
  (c.motion = .idle → c.pin = .low) ∧
  (c.motion = .idle → c.dir = .forward) ∧
  (c.motion = .running → c.configured = true) ∧
  (c.configured = true → validPeriod c.period = true) ∧
  (c.motion = .running → 27 * 2 ^ 150 < c.halfLatch * 2000 ∧ c.halfLatch * 20 ≤ 27 * 2 ^ 150)

/-- What holds in every state a run reaches: each axis is sound; an armed session's target is configured
(R69); with a client connected the board is IDLE or PUMP_RUNNING (R79), without one
WAIT_FOR_CONNECTION or IDLE (R128), so never the reserved CONNECTED (R20); and PUMP_RUNNING means some
axis runs. -/
abbrev State.Inv (s : State) : Prop :=
  s.x.Inv ∧ s.y.Inv ∧ s.z.Inv ∧
  (s.pollArmed = true → (s.chan s.sessAxis).configured = true) ∧
  (s.seq = .opened → s.board = .idle ∨ s.board = .pumpRunning) ∧
  (s.seq ≠ .opened → s.board = .waitForConnection ∨ s.board = .idle) ∧
  (s.board = .pumpRunning → s.allIdle = false)

/-- The source's property that the board is PUMP_RUNNING iff some axis runs (R94), with what makes it
inductive: no axis runs while no client is connected. -/
abbrev State.BoardTracksMotion (s : State) : Prop :=
  (s.board = .pumpRunning ↔ s.allIdle = false) ∧ (s.seq ≠ .opened → s.allIdle = true)

/-! ## Timing -/

/-- The phase of an armed step timer lies within one interval (R134). -/
abbrev Channel.Phased (c : Channel) : Prop :=
  c.motion = .running → 0 ≤ c.tickIn ∧ c.tickIn ≤ c.halfLatch

/-- Every armed timer fires within one interval of its last firing or arming (R134, R136, R137). -/
abbrev State.Phased (s : State) : Prop :=
  s.x.Phased ∧ s.y.Phased ∧ s.z.Phased ∧
  (s.pollArmed = true → 0 ≤ s.pollIn ∧ s.pollIn ≤ Config.pollInterval)

/-- A channel with its timing-only elements erased. -/
def Channel.eraseTiming (c : Channel) : Channel := { c with halfLatch := 0, tickIn := 0 }

/-- A state with its timing-only elements erased, the elapsed times of its script among them. -/
def State.eraseTiming (s : State) : State :=
  { s with
    x := s.x.eraseTiming
    y := s.y.eraseTiming
    z := s.z.eraseTiming
    pollIn := 0
    script := s.script.map fun e => { e with dt := 0 } }

/-- The answer of a step with its timing-only elements erased. -/
def eraseTimingOfResult : Result → Result
  | .next t => .next t.eraseTiming
  | .fault r => .fault r
  | .refused r => .refused r

/-! ## Inputs and runs -/

/-- An answer with the levels of the two inputs replaced in its next state. -/
def withInputsOfResult (h q : Level) : Result → Result
  | .next t => .next { t with homeIn := h, portIn := q }
  | .fault r => .fault r
  | .refused r => .refused r

/-- How many of the stimuli are ticks of axis `a`. -/
def tickCount (a : Axis) : List Stimulus → Nat
  | [] => 0
  | e :: es => (if e.event = .tick a then 1 else 0) + tickCount a es

end Sys2Proof.Machine
end

