-- ==== Sys2Proof/Certificates/Slice0/Obligations.lean ====
section
/-! DEFINITION. The statements about the model. Each docstring names the rule of spec/ it formalises. A
statement about a transition writes `s.enter e rest` for the state in which it takes place: the elapsed
time counted down on the armed timers, the inputs at the levels of `e`, `rest` left of the script (log 1,
log 4, log 20: the model's own fields). An equation of two states also says that `sessAxis` and `sessMode` keep
their values where no session exists, which is the model's choice (log 28). -/

open Sys2Proof Sys2Proof.Machine

/-! ## Encoding -/

/-- Decoding the encoding of any command, with any `error` field (R56) and whatever follows it, gives that
command back, every operand at every value (R45, R46, R48, R51, R52). -/
def Obligations.DecodeOfEncodeIsTheCommand : Prop :=
  ∀ (i : Instr) (error : Word) (rest : List Byte),
    decode (encodeWith error i ++ rest) = .command i rest

/-- The other direction: bytes that decode to a command are its encoding, for some `error` field. -/
def Obligations.DecodedBytesAreTheEncoding : Prop :=
  ∀ (bytes : List Byte) (i : Instr) (rest : List Byte),
    decode bytes = .command i rest → ∃ error : Word, bytes = encodeWith error i ++ rest

/-- The request frames of 95_test_vectors.md V-E1 to V-E9, V-E16 and V-E17, byte by byte. -/
def Obligations.WrittenFramesDecode : Prop :=
  decode [0x10, 0, 0, 0, 0, 0, 0, 0, 0, 0, 0, 0, 0, 0, 0, 0] = .command (.getStatus 0) [] ∧
  decode [0x10, 0, 0, 0, 1, 0, 0, 0, 0, 0, 0, 0, 1, 0, 0, 0] = .command (.runStepper 1) [] ∧
  decode [0x10, 0, 0, 0, 2, 0, 0, 0, 0, 0, 0, 0, 2, 0, 0, 0] = .command (.stopStepper 2) [] ∧
  decode [0x10, 0, 0, 0, 3, 0, 0, 0, 0, 0, 0, 0, 0, 0, 0, 0] = .command (.returnHome 0) [] ∧
  decode [0x10, 0, 0, 0, 4, 0, 0, 0, 0, 0, 0, 0, 1, 0, 0, 0] = .command (.runToNext 1) [] ∧
  decode [0x10, 0, 0, 0, 5, 0, 0, 0, 0, 0, 0, 0, 2, 0, 0, 0] = .command (.runToPrevious 2) [] ∧
  decode [0x0C, 0, 0, 0, 6, 0, 0, 0, 0, 0, 0, 0] = .command .getSysInfo [] ∧
  decode [0x14, 0, 0, 0, 7, 0, 0, 0, 0, 0, 0, 0, 0, 0, 0, 0, 0x0A, 0xD7, 0x23, 0x3C] =
    .command (.setConfig 0 0x3C23D70A) [] ∧
  decode [0x14, 0, 0, 0, 7, 0, 0, 0, 0, 0, 0, 0, 2, 0, 0, 0, 0xCD, 0xCC, 0xCC, 0x3D] =
    .command (.setConfig 2 0x3DCCCCCD) [] ∧
  decode [0x10, 0, 0, 0, 0, 0, 0, 0, 0, 0, 0, 0, 0, 1, 0, 0] = .command (.getStatus 0x100) [] ∧
  decode [0x10, 0, 0, 0, 1, 0, 0, 0, 5, 0, 0, 0, 1, 0, 0, 0] = .command (.runStepper 1) []

/-- R56: whatever the four bytes of the `error` field hold, the stream decodes to the same. -/
def Obligations.RequestErrorFieldIsIgnored : Prop :=
  ∀ (bytes : List Byte) (error : Word), 12 ≤ bytes.length →
    decode (bytes.take 8 ++ wordBytes error ++ bytes.drop 12) = decode bytes

/-- R51: the axis field stands at bytes 12 to 15; it names an axis exactly when it is 0, 1 or 2, with no
masking; the decoder rejects no value of it, and the command reports one that names no axis. -/
def Obligations.AxisFieldNamesAnAxis : Prop :=
  (∀ (w : Word) (a : Axis), axisOf w = some a ↔ w.toNat = a.index) ∧
  (∀ w : Word, axisOf w = none ↔ 3 ≤ w.toNat) ∧
  (∀ w p : Word, ∀ i ∈ [Instr.getStatus w, .runStepper w, .stopStepper w, .returnHome w, .runToNext w,
      .runToPrevious w, .setConfig w p],
    ((encode i).drop 12).take 4 = wordBytes w ∧ decode (encode i) = .command i [] ∧
    (3 ≤ w.toNat → validPeriod p = true →
      ∀ s : State, exec i s = .next { s with tx := s.tx ++ [⟨i.fid, .invalidAxis, .ack⟩] }))

/-- R52: the period field stands at bytes 16 to 19; it is valid exactly when it is finite and its exact
value is above 27/10000 and at most 27/100; those are exactly the words 0x3B30F27C to 0x3E8A3D70; and NaN,
the infinities, every datum with the sign bit set, the zeros and the subnormals are invalid. -/
def Obligations.ValidPeriodIsTheRange : Prop :=
  (∀ w p e : Word, ∀ rest : List Byte,
    decode (wordBytes 20 ++ wordBytes 7 ++ wordBytes e ++ wordBytes w ++ wordBytes p ++ rest) =
      .command (.setConfig w p) rest) ∧
  (∀ p : Word, validPeriod p = true ↔
    isFinite p = true ∧ (27 : Rat) / 10000 < val p ∧ val p ≤ (27 : Rat) / 100) ∧
  (∀ p : Word, validPeriod p = true ↔ 0x3B30F27C ≤ p.toNat ∧ p.toNat ≤ 0x3E8A3D70) ∧
  (∀ p : Word, isFinite p = false ∨ signBit p = true ∨ expField p = 0 → validPeriod p = false)

/-- 93_implementation_defined.md U3: the two readings of `BOUNDARY_COMPARE` differ at exactly the two
boundary words. -/
def Obligations.BoundaryReadingsDifferAtTwoWords : Prop :=
  ∀ p : Word, validPeriodWith .f32 p = validPeriodWith .exact p ↔
    p ≠ 0x3B30F27C#32 ∧ p ≠ 0x3E8A3D71#32

/-- R53, R92: the stream holds no whole frame exactly when it is shorter than the header, or than the
length the header announces. -/
def Obligations.ShortStreamIsIncomplete : Prop :=
  ∀ bytes : List Byte, decode bytes = .incomplete ↔
    bytes.length < 12 ∨ bytes.length < (u32At bytes 0).toNat

/-- R55: a frame whose length is below 12 (at its header, log 21), or is not that of the format its supported `fid` selects, is
refused by name and nothing happens; for an unsupported `fid` every length of 12 or more is admitted. -/
def Obligations.MalformedFrameIsRefused : Prop :=
  (∀ (s : State) (dt : Time) (h p : Level) (rest : List Stimulus) (len fid err : Word) (tail : List Byte),
    s.seq = .opened → s.script = ⟨dt, h, p, .command⟩ :: rest →
    s.rx = wordBytes len ++ wordBytes fid ++ wordBytes err ++ tail → len.toNat < 12 →
    step s = .refused (.malformedFrame (.lengthBelowHeader len))) ∧
  (∀ (s : State) (dt : Time) (h p : Level) (rest : List Stimulus) (f : Frame) (tail : List Byte),
    s.seq = .opened → s.script = ⟨dt, h, p, .command⟩ :: rest →
    s.rx = f.bytes ++ tail → f.payload.length + 12 = f.packetLength.toNat →
    (f.fid.toNat ≤ 5 ∧ f.packetLength.toNat ≠ 16 ∨ f.fid.toNat = 6 ∧ f.packetLength.toNat ≠ 12 ∨
      f.fid.toNat = 7 ∧ f.packetLength.toNat ≠ 20) →
    step s = .refused (.malformedFrame (.lengthMismatch f.fid f.packetLength))) ∧
  (∀ (f : Frame) (tail : List Byte), f.payload.length + 12 = f.packetLength.toNat → 8 ≤ f.fid.toNat →
    decode (f.bytes ++ tail) = .unsupported f.fid tail)

/-- R101: a `fid` outside 0 to 7, or one without a handler, is answered NOT_SUPPORTED, code 4, with no
state change; the frame is consumed and the connection stays open. -/
def Obligations.UnsupportedFidIsAnswered : Prop :=
  (∀ (s : State) (dt : Time) (h p : Level) (rest : List Stimulus) (f : Frame) (tail : List Byte),
    s.seq = .opened → s.script = ⟨dt, h, p, .command⟩ :: rest →
    s.rx = f.bytes ++ tail → f.payload.length + 12 = f.packetLength.toNat → 8 ≤ f.fid.toNat →
    step s = .next { s.enter ⟨dt, h, p, .command⟩ rest with
      rx := tail, tx := s.tx ++ [⟨f.fid, .notSupported, .ack⟩] }) ∧
  (∀ (bound : Nat → Bool) (f : Frame) (tail : List Byte),
    f.payload.length + 12 = f.packetLength.toNat → bound f.fid.toNat = false →
    decodeWith bound (f.bytes ++ tail) = .unsupported f.fid tail) ∧
  Status.notSupported.code = 4

/-- R45, R47: where each field of a reply stands and how long the three formats are; `EnumerationCodes` gives
the codes (R49, R50) their values. A sysinfo field holds the characters of its text in order, each as its ASCII
code (log 15: the code of `c` is `c + 1`), and zero bytes after them, up to 32. A sysinfo text of over 31 characters is outside the admitted configuration
(U20): that its field keeps its 32 bytes and its zero is the model's choice (log 15). -/
def Obligations.ReplyFrameLayout : Prop :=
  (∀ (fid : Word) (st : Status), encodeReply ⟨fid, st, .ack⟩ = wordBytes 12 ++ wordBytes fid ++ wordBytes st.code) ∧
  (∀ (fid : Word) (st : Status) (m : Motion) (b : BoardState) (h p : Level) (v f : Word),
    let bytes := encodeReply ⟨fid, st, .status m b h p v f⟩
    bytes.length = 36 ∧ u32At bytes 0 = 36 ∧ u32At bytes 4 = fid ∧ u32At bytes 8 = st.code ∧
    u32At bytes 12 = m.code ∧ u32At bytes 16 = b.code ∧ u32At bytes 20 = h.code ∧
    u32At bytes 24 = p.code ∧ u32At bytes 28 = v ∧ u32At bytes 32 = f) ∧
  (∀ (fid : Word) (st : Status) (t₁ t₂ t₃ t₄ : List (Fin 127)),
    let bytes := encodeReply ⟨fid, st,
      .sysInfo (sysInfoField t₁) (sysInfoField t₂) (sysInfoField t₃) (sysInfoField t₄)⟩
    bytes.length = 140 ∧ u32At bytes 0 = 140 ∧ u32At bytes 4 = fid ∧ u32At bytes 8 = st.code ∧
    (bytes.drop 12).take 32 = sysInfoField t₁ ∧ (bytes.drop 44).take 32 = sysInfoField t₂ ∧
    (bytes.drop 76).take 32 = sysInfoField t₃ ∧ bytes.drop 108 = sysInfoField t₄) ∧
  (∀ t : List (Fin 127), t.length ≤ 31 →
    sysInfoField t = t.map (fun c => BitVec.ofNat 8 (c.val + 1)) ++ List.replicate (32 - t.length) 0) ∧
  (∀ t : List (Fin 127), (sysInfoField t).length = 32 ∧ (sysInfoField t).getD 31 1 = 0)

/-! ## Commands -/

/-- When the stream's next frame is a command, the step takes it off the stream and runs it (R78, R92). -/
def Obligations.StepRunsTheDecodedCommand : Prop :=
  ∀ (s : State) (dt : Time) (h p : Level) (rest : List Stimulus) (i : Instr) (tail : List Byte),
    s.seq = .opened → s.script = ⟨dt, h, p, .command⟩ :: rest → decode s.rx = .command i tail →
    step s = exec i { s.enter ⟨dt, h, p, .command⟩ rest with rx := tail }

/-- R57, R92: every command, on every state, completes with exactly one reply, which carries its `fid` and,
unless it is OK, no payload; the connection stays as it is, and the environment's fields too. -/
def Obligations.EveryCommandRepliesOnce : Prop :=
  ∀ (i : Instr) (s : State), ∃ (t : State) (r : Reply),
    exec i s = .next t ∧ t.tx = s.tx ++ [r] ∧ r.fid = i.fid ∧
    (r.status ≠ .ok → r.payload = .ack) ∧
    (encodeReply r).length =
      (if r.status = .ok then
        (match i with
          | .getStatus _ => 36
          | .getSysInfo => 140
          | _ => 12)
      else 12) ∧
    t.seq = s.seq ∧ t.rx = s.rx ∧ t.script = s.script ∧ t.homeIn = s.homeIn ∧ t.portIn = s.portIn

/-- R97: in every error case the state after a command equals the state before it, the reply apart. Stated
under the invariant, without which an unconfigured axis could point in reverse (R83). -/
def Obligations.ErrorsChangeNothing : Prop :=
  ∀ (i : Instr) (s t : State) (r : Reply), s.Inv → exec i s = .next t → t.tx = s.tx ++ [r] →
    r.status ≠ .ok → t = { s with tx := s.tx ++ [r] }

/-- R98, R88: an axis field above 2 is answered INVALID_AXIS, code 1, with nothing changed: by six commands
before anything else, by SET_CONFIG after the period. -/
def Obligations.InvalidAxisIsAnswered : Prop :=
  Status.invalidAxis.code = 1 ∧
  ∀ (w : Word) (s : State), 3 ≤ w.toNat →
    (∀ i ∈ [Instr.getStatus w, .runStepper w, .stopStepper w, .returnHome w, .runToNext w, .runToPrevious w],
      exec i s = .next { s with tx := s.tx ++ [⟨i.fid, .invalidAxis, .ack⟩] }) ∧
    (∀ p : Word, validPeriod p = true →
      exec (.setConfig w p) s = .next { s with tx := s.tx ++ [⟨7, .invalidAxis, .ack⟩] }) ∧
    (∀ p : Word, validPeriod p = false →
      exec (.setConfig w p) s = .next { s with tx := s.tx ++ [⟨7, .invalidParameter, .ack⟩] })

/-- R80, R99: SET_CONFIG checks the period first (INVALID_PARAMETER, code 2, whatever the axis), then the
axis; on success it writes the period and the flag of that axis and nothing else. -/
def Obligations.SetConfigResult : Prop :=
  Status.invalidParameter.code = 2 ∧
  (∀ w p : Word, (Instr.setConfig w p).fid = 7 ∧ (encode (.setConfig w p)).length = 20) ∧
  ∀ (w p : Word) (s : State),
    (validPeriod p = false →
      exec (.setConfig w p) s = .next { s with tx := s.tx ++ [⟨7, .invalidParameter, .ack⟩] }) ∧
    (validPeriod p = true → 3 ≤ w.toNat →
      exec (.setConfig w p) s = .next { s with tx := s.tx ++ [⟨7, .invalidAxis, .ack⟩] }) ∧
    (∀ a : Axis, validPeriod p = true → w.toNat = a.index →
      exec (.setConfig w p) s = .next { s.setChan a { s.chan a with period := p, configured := true } with
        tx := s.tx ++ [⟨7, .ok, .ack⟩] })

/-- R81: RUN_STEPPER. An unconfigured axis: FLOW_NOT_CONFIGURED and no change. A running one: OK, only the
board written. An idle one: count 0, RUNNING, board PUMP_RUNNING, and the timer armed with half the period
(R19). Nothing else is written. (`tickIn`, the first firing a whole interval after the start, is the model's
field and choice: log 8, log 20; R137, D18.) -/
def Obligations.RunStepperResult : Prop :=
  (∀ w : Word, (Instr.runStepper w).fid = 1 ∧ (encode (.runStepper w)).length = 16) ∧
  ∀ (w : Word) (s : State),
    (3 ≤ w.toNat → exec (.runStepper w) s = .next { s with tx := s.tx ++ [⟨1, .invalidAxis, .ack⟩] }) ∧
    ∀ a : Axis, w.toNat = a.index →
      ((s.chan a).configured = false →
        exec (.runStepper w) s = .next { s with tx := s.tx ++ [⟨1, .flowNotConfigured, .ack⟩] }) ∧
      ((s.chan a).configured = true → (s.chan a).motion = .running →
        exec (.runStepper w) s = .next { s with board := .pumpRunning, tx := s.tx ++ [⟨1, .ok, .ack⟩] }) ∧
      ((s.chan a).configured = true → (s.chan a).motion = .idle →
        exec (.runStepper w) s = .next
          { s.setChan a { s.chan a with
              steps := 0, motion := .running,
              halfLatch := halfInterval (s.chan a).period, tickIn := halfInterval (s.chan a).period } with
            board := .pumpRunning, tx := s.tx ++ [⟨1, .ok, .ack⟩] })

/-- R82: STOP_STEPPER stops the axis, drives its line low and its direction forward, zeroes its count, and
writes board IDLE exactly when no other axis runs. It writes nothing else: not the session, no other axis. -/
def Obligations.StopStepperResult : Prop :=
  (∀ w : Word, (Instr.stopStepper w).fid = 2 ∧ (encode (.stopStepper w)).length = 16) ∧
  ∀ (w : Word) (s : State),
    (3 ≤ w.toNat → exec (.stopStepper w) s = .next { s with tx := s.tx ++ [⟨2, .invalidAxis, .ack⟩] }) ∧
    ∀ a : Axis, w.toNat = a.index →
      ((∀ b : Axis, b ≠ a → (s.chan b).motion = .idle) →
        exec (.stopStepper w) s = .next
          { s.setChan a { s.chan a with motion := .idle, pin := .low, dir := .forward, steps := 0 } with
            board := .idle, tx := s.tx ++ [⟨2, .ok, .ack⟩] }) ∧
      ((∃ b : Axis, b ≠ a ∧ (s.chan b).motion = .running) →
        exec (.stopStepper w) s = .next
          { s.setChan a { s.chan a with motion := .idle, pin := .low, dir := .forward, steps := 0 } with
            tx := s.tx ++ [⟨2, .ok, .ack⟩] })

/-- R83: RETURN_HOME. At home: OK and nothing else (R131). Otherwise reverse and run: an unconfigured axis is
answered FLOW_NOT_CONFIGURED with the direction forward again; a running one turns round with its count
standing; an idle one starts. On success the session is armed in mode HOME on it, `prevPort` left alone. (Forward is what an
unconfigured axis had before: the clause under the invariant. `tickIn` and `pollIn`, each timer's first firing a
whole interval after it is armed, are the model's fields and choice: log 8, log 20; R137, D18.) -/
def Obligations.ReturnHomeResult : Prop :=
  (∀ w : Word, (Instr.returnHome w).fid = 3 ∧ (encode (.returnHome w)).length = 16) ∧
  ∀ (w : Word) (s : State),
    (3 ≤ w.toNat → exec (.returnHome w) s = .next { s with tx := s.tx ++ [⟨3, .invalidAxis, .ack⟩] }) ∧
    ∀ a : Axis, w.toNat = a.index →
      (s.Inv → (s.chan a).configured = false → (s.chan a).dir = .forward) ∧
      (s.homeIn = .low → s.portIn = .low →
        exec (.returnHome w) s = .next { s with tx := s.tx ++ [⟨3, .ok, .ack⟩] }) ∧
      (s.homeIn = .high ∨ s.portIn = .high →
        ((s.chan a).configured = false →
          exec (.returnHome w) s = .next { s.setChan a { s.chan a with dir := .forward } with
            tx := s.tx ++ [⟨3, .flowNotConfigured, .ack⟩] }) ∧
        ((s.chan a).configured = true → (s.chan a).motion = .running →
          exec (.returnHome w) s = .next { s.setChan a { s.chan a with dir := .reverse } with
            board := .pumpRunning, pollArmed := true, sessAxis := a, sessMode := .home,
            pollIn := Config.pollInterval, tx := s.tx ++ [⟨3, .ok, .ack⟩] }) ∧
        ((s.chan a).configured = true → (s.chan a).motion = .idle →
          exec (.returnHome w) s = .next
            { s.setChan a { s.chan a with
                dir := .reverse, steps := 0, motion := .running,
                halfLatch := halfInterval (s.chan a).period, tickIn := halfInterval (s.chan a).period } with
              board := .pumpRunning, pollArmed := true, sessAxis := a, sessMode := .home,
              pollIn := Config.pollInterval, tx := s.tx ++ [⟨3, .ok, .ack⟩] }))

/-- R84: RUN_TO_NEXT runs the axis in the direction it has (forward for an idle axis, under the invariant) and
arms the session in mode PORT, `prevPort` seeded from the port sensor. (`tickIn` and `pollIn`, each timer's first
firing a whole interval after it is armed, are the model's fields and choice: log 8, log 20; R137, D18.) -/
def Obligations.RunToNextResult : Prop :=
  (∀ w : Word, (Instr.runToNext w).fid = 4 ∧ (encode (.runToNext w)).length = 16) ∧
  ∀ (w : Word) (s : State),
    (3 ≤ w.toNat → exec (.runToNext w) s = .next { s with tx := s.tx ++ [⟨4, .invalidAxis, .ack⟩] }) ∧
    ∀ a : Axis, w.toNat = a.index →
      (s.Inv → (s.chan a).motion = .idle → (s.chan a).dir = .forward) ∧
      ((s.chan a).configured = false →
        exec (.runToNext w) s = .next { s with tx := s.tx ++ [⟨4, .flowNotConfigured, .ack⟩] }) ∧
      ((s.chan a).configured = true → (s.chan a).motion = .running →
        exec (.runToNext w) s = .next { s with
          board := .pumpRunning, pollArmed := true, sessAxis := a, sessMode := .port, prevPort := s.portIn,
          pollIn := Config.pollInterval, tx := s.tx ++ [⟨4, .ok, .ack⟩] }) ∧
      ((s.chan a).configured = true → (s.chan a).motion = .idle →
        exec (.runToNext w) s = .next
          { s.setChan a { s.chan a with
              steps := 0, motion := .running,
              halfLatch := halfInterval (s.chan a).period, tickIn := halfInterval (s.chan a).period } with
            board := .pumpRunning, pollArmed := true, sessAxis := a, sessMode := .port,
            prevPort := s.portIn, pollIn := Config.pollInterval, tx := s.tx ++ [⟨4, .ok, .ack⟩] })

/-- R85: RUN_TO_PREVIOUS sets the direction reverse (forward again where the axis is unconfigured), runs the
axis and arms the session in mode PORT. (`tickIn` and `pollIn`, each timer's first firing a whole interval after
it is armed, are the model's fields and choice: log 8, log 20; R137, D18.) -/
def Obligations.RunToPreviousResult : Prop :=
  (∀ w : Word, (Instr.runToPrevious w).fid = 5 ∧ (encode (.runToPrevious w)).length = 16) ∧
  ∀ (w : Word) (s : State),
    (3 ≤ w.toNat → exec (.runToPrevious w) s = .next { s with tx := s.tx ++ [⟨5, .invalidAxis, .ack⟩] }) ∧
    ∀ a : Axis, w.toNat = a.index →
      ((s.chan a).configured = false →
        exec (.runToPrevious w) s = .next { s.setChan a { s.chan a with dir := .forward } with
          tx := s.tx ++ [⟨5, .flowNotConfigured, .ack⟩] }) ∧
      ((s.chan a).configured = true → (s.chan a).motion = .running →
        exec (.runToPrevious w) s = .next { s.setChan a { s.chan a with dir := .reverse } with
          board := .pumpRunning, pollArmed := true, sessAxis := a, sessMode := .port,
          prevPort := s.portIn, pollIn := Config.pollInterval, tx := s.tx ++ [⟨5, .ok, .ack⟩] }) ∧
      ((s.chan a).configured = true → (s.chan a).motion = .idle →
        exec (.runToPrevious w) s = .next
          { s.setChan a { s.chan a with
              dir := .reverse, steps := 0, motion := .running,
              halfLatch := halfInterval (s.chan a).period, tickIn := halfInterval (s.chan a).period } with
            board := .pumpRunning, pollArmed := true, sessAxis := a, sessMode := .port,
            prevPort := s.portIn, pollIn := Config.pollInterval, tx := s.tx ++ [⟨5, .ok, .ack⟩] })

/-- R100: a run-class command on a valid, unconfigured axis is answered FLOW_NOT_CONFIGURED, code 3, and
changes nothing (RETURN_HOME only when not at home). Under the invariant, as `ErrorsChangeNothing`. -/
def Obligations.UnconfiguredAxisIsNotRun : Prop :=
  Status.flowNotConfigured.code = 3 ∧
  ∀ (w : Word) (a : Axis) (s : State), s.Inv → w.toNat = a.index → (s.chan a).configured = false →
    (∀ i ∈ [Instr.runStepper w, .runToNext w, .runToPrevious w],
      exec i s = .next { s with tx := s.tx ++ [⟨i.fid, .flowNotConfigured, .ack⟩] }) ∧
    (s.homeIn = .high ∨ s.portIn = .high →
      exec (.returnHome w) s = .next { s with tx := s.tx ++ [⟨3, .flowNotConfigured, .ack⟩] })

/-- R79, R87: GET_STATUS. The reply holds the motion of the axis, the board, both levels, the rounded exact
quotient of the count and STEPS_PER_ML, and the flow: +0 unless the board is PUMP_RUNNING; the rounded exact
quotient for a configured axis, from the period register; some value for an axis never configured (a free
value, log 11). No state of the block is written. Under the invariant, which gives a configured axis a valid
period, and a connected board IDLE or PUMP_RUNNING. -/
def Obligations.GetStatusResult : Prop :=
  (∀ w : Word, (Instr.getStatus w).fid = 0 ∧ (encode (.getStatus w)).length = 16) ∧
  ∀ (w : Word) (s : State),
    (3 ≤ w.toNat → exec (.getStatus w) s = .next { s with tx := s.tx ++ [⟨0, .invalidAxis, .ack⟩] }) ∧
    ∀ a : Axis, w.toNat = a.index →
      (s.board ≠ .pumpRunning →
        exec (.getStatus w) s = .next { s with tx := s.tx ++ [⟨0, .ok,
          .status (s.chan a).motion s.board s.homeIn s.portIn
            (roundStatus (((s.chan a).steps.toNat : Rat) / Config.stepsPerMl)) 0⟩] }) ∧
      (s.Inv → s.board = .pumpRunning → (s.chan a).configured = true →
        exec (.getStatus w) s = .next { s with tx := s.tx ++ [⟨0, .ok,
          .status (s.chan a).motion s.board s.homeIn s.portIn
            (roundStatus (((s.chan a).steps.toNat : Rat) / Config.stepsPerMl))
            (roundStatus (60 / val (s.chan a).period / Config.stepsPerMl))⟩] }) ∧
      (s.board = .pumpRunning → (s.chan a).configured = false →
        ∃ rate : Word, exec (.getStatus w) s = .next { s with
          draws := s.draws + 1,
          tx := s.tx ++ [⟨0, .ok,
            .status (s.chan a).motion s.board s.homeIn s.portIn
              (roundStatus (((s.chan a).steps.toNat : Rat) / Config.stepsPerMl)) rate⟩] }) ∧
      (s.Inv → s.seq = .opened → s.board.code = 2 ∨ s.board.code = 3)

/-- R86: GET_SYS_INFO, 12 bytes and no operand, cannot fail: on every state it answers OK with the four
configured strings, each padded to 32 bytes (R47), and changes nothing. -/
def Obligations.GetSysInfoResult : Prop :=
  Instr.getSysInfo.fid = 6 ∧ (encode .getSysInfo).length = 12 ∧
  (∀ text ∈ [Config.fwVersionText, Config.deviceIdText, Config.ipAddrText, Config.macAddrText],
    (sysInfoField text).length = 32) ∧
  ∀ s : State, exec .getSysInfo s = .next { s with tx := s.tx ++ [⟨6, .ok,
    .sysInfo (sysInfoField Config.fwVersionText) (sysInfoField Config.deviceIdText)
      (sysInfoField Config.ipAddrText) (sysInfoField Config.macAddrText)⟩] }

/-- R37: the two reading commands change no state element (of the model's own fields, only the record of
replies and the count of draws). -/
def Obligations.ReadingChangesNothing : Prop :=
  ∀ (i : Instr) (s t : State), (∃ w, i = .getStatus w) ∨ i = .getSysInfo → exec i s = .next t →
    t = { s with tx := t.tx, draws := t.draws }

/-- R87, U13: `STATUS_ROUNDING` returns an exactly representable quotient unchanged. (That a zero is returned
as +0, not -0, is deduced from the vectors: log 24.) -/
def Obligations.RoundingKeepsRepresentableQuotients : Prop :=
  ∀ w : Word, isFinite w = true → w ≠ 0x80000000#32 → roundStatus (val w) = w

/-- The volumes and flows of S7 and 95_test_vectors.md section 2.5, with the default rounding and
STEPS_PER_ML = 200: 1000, 1, 3, 4, 15, 25, 40, 812 and 2^32 - 1 steps; periods 0.005, 0.01, 0.02 and 0.1. -/
def Obligations.DefaultRoundingGivesTheExamples : Prop :=
  roundNearestEven (volumeQuotient 200 1000#32) = 0x40A00000#32 ∧
  roundNearestEven (volumeQuotient 200 1#32) = 0x3BA3D70A#32 ∧
  roundNearestEven (volumeQuotient 200 3#32) = 0x3C75C28F#32 ∧
  roundNearestEven (volumeQuotient 200 4#32) = 0x3CA3D70A#32 ∧
  roundNearestEven (volumeQuotient 200 15#32) = 0x3D99999A#32 ∧
  roundNearestEven (volumeQuotient 200 25#32) = 0x3E000000#32 ∧
  roundNearestEven (volumeQuotient 200 40#32) = 0x3E4CCCCD#32 ∧
  roundNearestEven (volumeQuotient 200 812#32) = 0x4081EB85#32 ∧
  roundNearestEven (volumeQuotient 200 0xFFFFFFFF#32) = 0x4BA3D70A#32 ∧
  roundNearestEven (flowQuotient 200 0x3C23D70A#32) = 0x41F00000#32 ∧
  roundNearestEven (flowQuotient 200 0x3CA3D70A#32) = 0x41700000#32 ∧
  roundNearestEven (flowQuotient 200 0x3DCCCCCD#32) = 0x40400000#32 ∧
  roundNearestEven (flowQuotient 200 0x3BA3D70A#32) = 0x42700000#32

/-- What each command leaves of every axis (R30, the command columns): an axis it does not address keeps all
its registers; of the one it addresses, the period and the flag change only under SET_CONFIG, the line only
under STOP_STEPPER, the direction only under STOP_STEPPER, RETURN_HOME and RUN_TO_PREVIOUS, and the motion
and the count only under the run and stop commands. -/
def Obligations.CommandFrameOfAxes : Prop :=
  ∀ (i : Instr) (s t : State) (b : Axis), exec i s = .next t →
    ((∀ w, i ≠ .runStepper w) → (∀ w, i ≠ .stopStepper w) → (∀ w, i ≠ .returnHome w) →
      (∀ w, i ≠ .runToNext w) → (∀ w, i ≠ .runToPrevious w) →
      (t.chan b).motion = (s.chan b).motion ∧ (t.chan b).steps = (s.chan b).steps) ∧
    ((∀ w, i ≠ .stopStepper w) → (t.chan b).pin = (s.chan b).pin) ∧
    ((∀ w, i ≠ .stopStepper w) → (∀ w, i ≠ .returnHome w) → (∀ w, i ≠ .runToPrevious w) →
      (t.chan b).dir = (s.chan b).dir) ∧
    ((∀ w p, i ≠ .setConfig w p) →
      (t.chan b).period = (s.chan b).period ∧ (t.chan b).configured = (s.chan b).configured) ∧
    (∀ w p : Word, w.toNat ≠ b.index →
      i ∈ [Instr.getStatus w, .runStepper w, .stopStepper w, .returnHome w, .runToNext w, .runToPrevious w,
        .getSysInfo, .setConfig w p] →
      t.chan b = s.chan b)

/-- What each command leaves of the block's other registers (R30, the command columns): the board changes
only under the run and stop commands, the session only under the homing-class commands, `prevPort` only
under RUN_TO_NEXT and RUN_TO_PREVIOUS, `seq` never. -/
def Obligations.CommandFrameOfBlock : Prop :=
  ∀ (i : Instr) (s t : State), exec i s = .next t →
    t.seq = s.seq ∧
    ((∀ w, i ≠ .runStepper w) → (∀ w, i ≠ .stopStepper w) → (∀ w, i ≠ .returnHome w) →
      (∀ w, i ≠ .runToNext w) → (∀ w, i ≠ .runToPrevious w) → t.board = s.board) ∧
    ((∀ w, i ≠ .returnHome w) → (∀ w, i ≠ .runToNext w) → (∀ w, i ≠ .runToPrevious w) →
      t.pollArmed = s.pollArmed ∧ t.sessAxis = s.sessAxis ∧ t.sessMode = s.sessMode) ∧
    ((∀ w, i ≠ .runToNext w) → (∀ w, i ≠ .runToPrevious w) → t.prevPort = s.prevPort)

/-! ## Timer events -/

/-- R63: TICK(a) is enabled exactly when the axis runs. It raises a low line and adds one to the count
(modulo 2^32, R66), or lowers a high line and leaves the count; it writes nothing else. (The next firing is
one interval later: the model's field `tickIn`, log 20.) -/
def Obligations.TickResult : Prop :=
  ∀ (s : State) (e : Stimulus) (rest : List Stimulus) (a : Axis), s.script = e :: rest → e.event = .tick a →
    ((s.chan a).motion = .idle → step s = .refused (.stepTimerDisarmed a)) ∧
    ((s.chan a).motion = .running → (s.chan a).pin = .low →
      step s = .next ((s.enter e rest).setChan a { s.chan a with
        pin := .high, steps := BitVec.ofNat 32 (((s.chan a).steps.toNat + 1) % 2 ^ 32),
        tickIn := (s.chan a).halfLatch })) ∧
    ((s.chan a).motion = .running → (s.chan a).pin = .high →
      step s = .next ((s.enter e rest).setChan a { s.chan a with
        pin := .low, tickIn := (s.chan a).halfLatch }))

/-- R65, R39 (c): along any script through which an axis keeps running, an axis that started it with its line
low and its count 0 ends with the line of the parity of its own ticks, and half of them, rounded up, as its
count, modulo 2^32: nothing else that happens matters, not the ticks of the other axes, their starts and stops,
commands to it, polls or disconnects. And a script of ticks of running axes alone completes, with the board as
it was. -/
def Obligations.TickCountLaw : Prop :=
  (∀ (es rest : List Stimulus) (s t : State) (a : Axis), s.script = es ++ rest →
    Host.Core.run Sys2Proof.core es.length s = .next t →
    (∀ (k : Nat) (u : State), k ≤ es.length → Host.Core.run Sys2Proof.core k s = .next u →
      (u.chan a).motion = .running) →
    (s.chan a).pin = .low → (s.chan a).steps = 0 →
    t.script = rest ∧
      (t.chan a).pin = (if tickCount a es % 2 = 1 then .high else .low) ∧
      (t.chan a).steps.toNat = ((tickCount a es + 1) / 2) % 2 ^ 32) ∧
  ∀ (es rest : List Stimulus) (s : State) (a : Axis), s.script = es ++ rest →
    (∀ e ∈ es, ∃ b : Axis, e.event = .tick b ∧ (s.chan b).motion = .running) →
    (s.chan a).pin = .low → (s.chan a).steps = 0 →
    ∃ t : State, Host.Core.run Sys2Proof.core es.length s = .next t ∧ t.script = rest ∧
      (t.chan a).pin = (if tickCount a es % 2 = 1 then .high else .low) ∧
      (t.chan a).steps.toNat = ((tickCount a es + 1) / 2) % 2 ^ 32 ∧ t.board = s.board

/-- R16, R17, R19, R65: while an axis runs, only its own tick changes its line or its count, and nothing
changes the interval its timer was armed with. -/
def Obligations.OnlyTicksCountWhileRunning : Prop :=
  ∀ (s t : State) (e : Stimulus) (rest : List Stimulus) (a : Axis), s.script = e :: rest →
    step s = .next t → (s.chan a).motion = .running → (t.chan a).motion = .running →
    (t.chan a).halfLatch = (s.chan a).halfLatch ∧
    (e.event ≠ .tick a → (t.chan a).pin = (s.chan a).pin ∧ (t.chan a).steps = (s.chan a).steps)

/-- R70, R71: POLL is enabled exactly when armed; one that finds its target not running clears `pollArmed`
and does nothing else, whatever the sensors read. (That the target and mode of the ended session stay in their
registers is the model's choice: log 28.) -/
def Obligations.PollOfStoppedTarget : Prop :=
  ∀ (s : State) (e : Stimulus) (rest : List Stimulus), s.script = e :: rest → e.event = .poll →
    (s.pollArmed = false → step s = .refused .pollTimerDisarmed) ∧
    (s.pollArmed = true → (s.chan s.sessAxis).motion = .idle →
      step s = .next { s.enter e rest with pollArmed := false })

/-- R72, R73: with the target running, a poll in mode HOME is an edge iff both sensors read low, and leaves
`prevPort`; in mode PORT it is an edge iff `prevPort` was high and the port sensor reads low, and `prevPort`
becomes the sample either way, whatever the home sensor reads. Without an edge nothing else changes (the
timer's phase starts again, log 20). -/
def Obligations.PollWithoutEdge : Prop :=
  ∀ (s : State) (e : Stimulus) (rest : List Stimulus), s.script = e :: rest → e.event = .poll →
    s.pollArmed = true → (s.chan s.sessAxis).motion = .running →
    (s.sessMode = .home → e.home = .high ∨ e.port = .high →
      step s = .next { s.enter e rest with pollIn := Config.pollInterval }) ∧
    (s.sessMode = .port → s.prevPort = .low ∨ e.port = .high →
      step s = .next { s.enter e rest with prevPort := e.port, pollIn := Config.pollInterval })

/-- R74: on an edge (R72, R73) the poll disarms itself, stops the target (RUNNING to IDLE, line low) and sets
its direction forward; the board becomes IDLE exactly when no other axis runs, whatever it and `seq` held;
the count and every other axis stay. (That the target and mode of the ended session stay in their registers is
the model's choice: log 28.) -/
def Obligations.PollEdgeAction : Prop :=
  ∀ (s : State) (e : Stimulus) (rest : List Stimulus) (a : Axis), s.script = e :: rest → e.event = .poll →
    s.pollArmed = true → s.sessAxis = a → (s.chan a).motion = .running →
    (s.sessMode = .home ∧ e.home = .low ∧ e.port = .low ∨
      s.sessMode = .port ∧ s.prevPort = .high ∧ e.port = .low) →
    ∃ t : State, step s = .next t ∧ t.pollArmed = false ∧
      (t.chan a).motion = .idle ∧ (t.chan a).pin = .low ∧ (t.chan a).dir = .forward ∧
      (t.chan a).steps = (s.chan a).steps ∧ (t.chan a).period = (s.chan a).period ∧
      (t.chan a).configured = (s.chan a).configured ∧
      (∀ b : Axis, b ≠ a → t.chan b = (s.enter e rest).chan b) ∧
      ((∀ b : Axis, b ≠ a → (s.chan b).motion = .idle) → t.board = .idle) ∧
      ((∃ b : Axis, b ≠ a ∧ (s.chan b).motion = .running) → t.board = s.board) ∧
      t.prevPort = (if s.sessMode = .port then .low else s.prevPort) ∧
      t.seq = s.seq ∧ t.sessAxis = s.sessAxis ∧ t.sessMode = s.sessMode ∧ t.tx = s.tx ∧ t.rx = s.rx

/-! ## Sessions -/

/-- R76: `pollArmed` is cleared only by a poll or a reset: no command, STOP_STEPPER among them, and no DISCONNECT
clears it; and a session is replaced, its target or mode changed, only by a homing-class command, answered OK,
or a reset. (R76 (c) counts the replacement as an end of the old session too. That a poll which ends the session
leaves its target and mode in their registers is the model's choice: log 28.) -/
def Obligations.SessionEndsOnlyByPollOrReset : Prop :=
  ∀ (s t : State) (e : Stimulus) (rest : List Stimulus), s.script = e :: rest → step s = .next t →
    s.pollArmed = true →
    (t.pollArmed = false → e.event = .poll ∨ e.event = .reset) ∧
    (t.sessAxis ≠ s.sessAxis ∨ t.sessMode ≠ s.sessMode → e.event = .reset ∨
      e.event = .command ∧ t.pollArmed = true ∧ ∃ (w : Word) (i : Instr) (tail : List Byte) (a : Axis),
        decode s.rx = .command i tail ∧ (i = .returnHome w ∨ i = .runToNext w ∨ i = .runToPrevious w) ∧
        w.toNat = a.index ∧ t.sessAxis = a ∧ t.tx = s.tx ++ [⟨i.fid, .ok, .ack⟩])

/-- R22, R40, R69: `pollArmed` is set only by a homing-class command answered OK, which leaves its axis
running as the target, in its mode, and the poll timer one whole interval from firing (R137; log 20). -/
def Obligations.SessionArmedOnlyByHomingCommand : Prop :=
  ∀ (s t : State) (e : Stimulus) (rest : List Stimulus), s.script = e :: rest → step s = .next t →
    s.pollArmed = false → t.pollArmed = true →
    e.event = .command ∧ ∃ (w : Word) (i : Instr) (tail : List Byte) (a : Axis),
      decode s.rx = .command i tail ∧ w.toNat = a.index ∧
      (i = .returnHome w ∧ t.sessMode = .home ∨
        (i = .runToNext w ∨ i = .runToPrevious w) ∧ t.sessMode = .port ∧ t.prevPort = e.port) ∧
      t.sessAxis = a ∧ (t.chan a).motion = .running ∧ t.board = .pumpRunning ∧
      t.pollIn = Config.pollInterval ∧ t.tx = s.tx ++ [⟨i.fid, .ok, .ack⟩]

/-- R24, D20: a session in mode HOME, or none, leaves `prevPort` unobservable: two states that differ in it
alone answer alike, and differ in it alone afterwards, until a PORT session seeds it anew. -/
def Obligations.PrevPortUnobservableOutsidePortMode : Prop :=
  ∀ (s : State) (p : Level), (s.pollArmed = true → s.sessMode = .home) →
    (∀ r : Refusal, step s = .refused r ↔ step { s with prevPort := p } = .refused r) ∧
    ∀ t : State, step s = .next t → ∃ u : State, step { s with prevPort := p } = .next u ∧
      { t with prevPort := u.prevPort } = u ∧ (u = t ∨ (t.pollArmed = true → t.sessMode = .home))

/-- R43: the sensors are read only at the sampling instants. Other levels make no other difference to: a
command that samples nothing (SET_CONFIG, RUN_STEPPER, STOP_STEPPER, GET_SYS_INFO, or any with an axis field
above 2); RUN_TO_NEXT and RUN_TO_PREVIOUS of an unconfigured axis; and, for the home level alone, those two
always. Nor to any transition but a command or a poll, a poll of a stopped target, or, for the home level
alone, a poll in mode PORT. -/
def Obligations.SensorsAreReadOnlyWhenSampled : Prop :=
  (∀ (s : State) (w p : Word) (h q : Level),
    (∀ i ∈ [Instr.setConfig w p, .runStepper w, .stopStepper w, .getSysInfo],
      exec i { s with homeIn := h, portIn := q } = withInputsOfResult h q (exec i s)) ∧
    (3 ≤ w.toNat → ∀ i ∈ [Instr.getStatus w, .returnHome w, .runToNext w, .runToPrevious w],
      exec i { s with homeIn := h, portIn := q } = withInputsOfResult h q (exec i s)) ∧
    (∀ a : Axis, w.toNat = a.index → (s.chan a).configured = false →
      ∀ i ∈ [Instr.runToNext w, .runToPrevious w],
        exec i { s with homeIn := h, portIn := q } = withInputsOfResult h q (exec i s)) ∧
    (∀ i ∈ [Instr.runToNext w, .runToPrevious w],
      exec i { s with homeIn := h } = withInputsOfResult h s.portIn (exec i s))) ∧
  (∀ (s : State) (ev : Event) (h q : Level), ev ≠ .command →
    (ev = .poll → (s.chan s.sessAxis).motion = .idle) →
    perform ev { s with homeIn := h, portIn := q } = withInputsOfResult h q (perform ev s)) ∧
  (∀ (s : State) (h : Level), s.sessMode = .port →
    perform .poll { s with homeIn := h } = withInputsOfResult h s.portIn (perform .poll s))

/-- R121: the stale session. STOP_STEPPER of the target leaves `pollArmed` set; RUN_STEPPER of it before any
poll makes the old session live again: the next poll that sees its edge stops the axis meant to run freely. -/
def Obligations.StaleSessionComesAlive : Prop :=
  ∀ (s : State) (a : Axis) (w : Word) (e₁ e₂ e₃ : Stimulus) (rest : List Stimulus) (tail : List Byte),
    s.seq = .opened → w.toNat = a.index → (s.chan a).configured = true →
    s.pollArmed = true → s.sessAxis = a →
    (s.sessMode = .home ∧ e₃.home = .low ∧ e₃.port = .low ∨
      s.sessMode = .port ∧ s.prevPort = .high ∧ e₃.port = .low) →
    s.script = e₁ :: e₂ :: e₃ :: rest → e₁.event = .command → e₂.event = .command → e₃.event = .poll →
    s.rx = encode (.stopStepper w) ++ encode (.runStepper w) ++ tail →
    ∃ t₁ t₂ t₃ : State, step s = .next t₁ ∧ step t₁ = .next t₂ ∧ step t₂ = .next t₃ ∧
      (t₁.chan a).motion = .idle ∧ t₁.pollArmed = true ∧
      (t₂.chan a).motion = .running ∧ t₂.pollArmed = true ∧ t₂.board = .pumpRunning ∧
      (t₃.chan a).motion = .idle ∧ t₃.pollArmed = false ∧
      t₃.tx = s.tx ++ [⟨2, .ok, .ack⟩, ⟨1, .ok, .ack⟩]

/-- R132, V-D9: an edge-seeing poll and a STOP_STEPPER of its target give the same state in either order (the
timing layer apart), but in mode PORT for `prevPort`, which the poll updates only where it comes first. (The
disarmed session's target and mode, the same in both, are log 28.) -/
def Obligations.PollAndStopCommute : Prop :=
  ∀ (s : State) (a : Axis) (w : Word) (h : Level) (dt₁ dt₂ : Time) (rest : List Stimulus) (tail : List Byte),
    s.seq = .opened → w.toNat = a.index → s.pollArmed = true → s.sessAxis = a →
    (s.chan a).motion = .running → s.rx = encode (.stopStepper w) ++ tail →
    (s.sessMode = .home ∧ h = .low ∨ s.sessMode = .port ∧ s.prevPort = .high) →
    ∃ t u : State,
      Host.Core.run Sys2Proof.core 2 { s with
        script := ⟨dt₁, h, .low, .poll⟩ :: ⟨dt₂, h, .low, .command⟩ :: rest } = .next t ∧
      Host.Core.run Sys2Proof.core 2 { s with
        script := ⟨dt₁, h, .low, .command⟩ :: ⟨dt₂, h, .low, .poll⟩ :: rest } = .next u ∧
      (s.sessMode = .home → t.eraseTiming = u.eraseTiming) ∧
      (s.sessMode = .port → t.prevPort = .low ∧ u.prevPort = .high ∧
        { t.eraseTiming with prevPort := .high } = u.eraseTiming) ∧
      t.pollArmed = false ∧ (t.chan a).motion = .idle ∧ (t.chan a).steps = 0

/-! ## Sequencer, board, reset -/

/-- R90, R91, R93: LISTEN, ACCEPT and DISCONNECT, each enabled in one state of `seq`, write `board` and `seq`
and nothing else of the block; asked for elsewhere they are refused (log 2). That DISCONNECT also drops what
was sent and not read, whole frames included, is the model's choice (log 5). -/
def Obligations.SequencerEvents : Prop :=
  ∀ (s : State) (e : Stimulus) (rest : List Stimulus), s.script = e :: rest →
    (e.event = .listen →
      (s.seq = .preListen →
        step s = .next { s.enter e rest with board := .waitForConnection, seq := .listening }) ∧
      (s.seq ≠ .preListen → step s = .refused .notPreListen)) ∧
    (e.event = .accept →
      (s.seq = .listening → step s = .next { s.enter e rest with board := .idle, seq := .opened }) ∧
      (s.seq ≠ .listening → step s = .refused .notListening)) ∧
    (e.event = .disconnect →
      (s.seq = .opened →
        step s = .next { s.enter e rest with board := .waitForConnection, seq := .preListen, rx := [] }) ∧
      (s.seq ≠ .opened → step s = .refused .notOpen))

/-- R21, R95: `seq` changes only PRE_LISTEN to LISTENING by LISTEN (or by the block itself when the script is
empty, log 3), LISTENING to OPEN by ACCEPT, OPEN to PRE_LISTEN by DISCONNECT, and to PRE_LISTEN by RESET. -/
def Obligations.SequencerTransitions : Prop :=
  ∀ s t : State, step s = .next t → t.seq ≠ s.seq →
    (s.script = [] ∧ s.seq = .preListen ∧ t.seq = .listening) ∨
    ∃ (e : Stimulus) (rest : List Stimulus), s.script = e :: rest ∧
      (e.event = .listen ∧ s.seq = .preListen ∧ t.seq = .listening ∨
        e.event = .accept ∧ s.seq = .listening ∧ t.seq = .opened ∨
        e.event = .disconnect ∧ s.seq = .opened ∧ t.seq = .preListen ∨
        e.event = .reset ∧ t.seq = .preListen)

/-- R94, the table: whenever a transition changes `board`, it is one of these, and to this value. -/
def Obligations.BoardIsWrittenOnlyByTheTable : Prop :=
  ∀ (s t : State) (e : Stimulus) (rest : List Stimulus), s.script = e :: rest → step s = .next t →
    t.board ≠ s.board →
    ((e.event = .reset ∨ e.event = .listen ∨ e.event = .disconnect) ∧ t.board = .waitForConnection) ∨
    (e.event = .accept ∧ t.board = .idle) ∨
    (e.event = .poll ∧ s.pollArmed = true ∧ t.pollArmed = false ∧ (s.chan s.sessAxis).motion = .running ∧
      t.allIdle = true ∧ t.board = .idle) ∨
    (e.event = .command ∧ ∃ (i : Instr) (tail : List Byte) (w : Word) (a : Axis),
      decode s.rx = .command i tail ∧ w.toNat = a.index ∧
      (i = .stopStepper w ∧ t.allIdle = true ∧ t.board = .idle ∨
        (i = .runStepper w ∨ i = .returnHome w ∨ i = .runToNext w ∨ i = .runToPrevious w) ∧
          (s.chan a).configured = true ∧ (t.chan a).motion = .running ∧ t.board = .pumpRunning))

/-- R94: the source's property. Every step keeps it that the board is PUMP_RUNNING iff some axis runs (and
none runs unconnected), unless it is a DISCONNECT while an axis runs. -/
def Obligations.BoardTracksMotionKept : Prop :=
  ∀ s t : State, s.BoardTracksMotion →
    (∀ (e : Stimulus) (rest : List Stimulus), s.script = e :: rest → e.event = .disconnect →
      s.allIdle = true) →
    step s = .next t → t.BoardTracksMotion

/-- R20: no step enters the reserved board state CONNECTED. -/
def Obligations.ConnectedIsNeverEntered : Prop :=
  ∀ s t : State, step s = .next t → t.board = .connected → s.board = .connected

/-- R13, R118: configuration survives everything but RESET: a set flag stays set, and a period register
changes only under a SET_CONFIG of that axis with that valid period. -/
def Obligations.ConfigurationSurvives : Prop :=
  ∀ (s t : State) (e : Stimulus) (rest : List Stimulus) (a : Axis), s.script = e :: rest →
    step s = .next t → e.event ≠ .reset →
    ((s.chan a).configured = true → (t.chan a).configured = true) ∧
    ((t.chan a).period ≠ (s.chan a).period ∨ (t.chan a).configured ≠ (s.chan a).configured →
      e.event = .command ∧ ∃ (w : Word) (tail : List Byte),
        decode s.rx = .command (.setConfig w (t.chan a).period) tail ∧ w.toNat = a.index ∧
        validPeriod (t.chan a).period = true ∧ (t.chan a).configured = true)

/-- R116, R117: RESET is always enabled and leaves every element the spec gives a reset value at it, both
outputs low, and sends no frame; the machine starts there. The elements it leaves unspecified are not
mentioned. (That the script goes on is the model's: log 1, log 22.) -/
def Obligations.ResetValues : Prop :=
  let atReset (t : State) : Prop :=
    (∀ a : Axis, (t.chan a).configured = false ∧ (t.chan a).motion = .idle ∧ (t.chan a).steps = 0 ∧
      (t.chan a).dir = .forward ∧ t.stepOut a = .low ∧ t.dirOut a = .low) ∧
    t.board = .waitForConnection ∧ t.seq = .preListen ∧ t.pollArmed = false
  atReset Sys2Proof.core.reset ∧
  ∀ (s : State) (e : Stimulus) (rest : List Stimulus), s.script = e :: rest → e.event = .reset →
    ∃ t : State, step s = .next t ∧ atReset t ∧ t.tx = s.tx ∧ t.script = rest

/-- R118 (1), with log 3, the model's choice: with nothing chosen by the environment the block listens by itself
in PRE_LISTEN, and in any other state waits, changing nothing; so from reset its first step is LISTEN, and
after it the block waits. -/
def Obligations.ResetMachineListensAndWaits : Prop :=
  (∀ s : State, s.script = [] →
    (s.seq = .preListen → step s = .next { s with board := .waitForConnection, seq := .listening }) ∧
    (s.seq ≠ .preListen → step s = .next s)) ∧
  ∃ t : State, step State.reset = .next t ∧ t = { State.reset with seq := .listening } ∧ step t = .next t

/-! ## Whole machine -/

/-- R8, R114: a step answers a next state exactly when the transition the script asks for is enabled. (The
model's choices: one that is not enabled is refused, log 2; the client sends only while `seq` is OPEN, log 5.) -/
def Obligations.StepCompletesIffEnabled : Prop :=
  ∀ (s : State) (e : Stimulus) (rest : List Stimulus), s.script = e :: rest →
    ((∃ t : State, step s = .next t) ↔ s.enabled e.event = true)

/-- R28, R79, R112, R128: every step keeps the invariant of the block. -/
def Obligations.StepKeepsTheInvariant : Prop :=
  ∀ s t : State, s.Inv → step s = .next t → t.Inv

/-- The invariant and the board property hold after reset (R28, R94, R117). -/
def Obligations.ResetMeetsTheInvariants : Prop :=
  State.Inv Sys2Proof.core.reset ∧ State.BoardTracksMotion Sys2Proof.core.reset ∧
    State.Phased Sys2Proof.core.reset

/-- R19, R140: no functional rule reads the timing layer: states equal but for it step alike. -/
def Obligations.TimingLayerIsNeverRead : Prop :=
  ∀ s t : State, s.eraseTiming = t.eraseTiming →
    eraseTimingOfResult (step s) = eraseTimingOfResult (step t)

/-! ## Timing layer -/

/-- R19, R134: the interval a step timer is armed with is exactly half the period's value, in seconds; for a
valid period it is above 1.35 ms and at most 135 ms (R112). The poll timer's interval is 100 ms (R5, R136). -/
def Obligations.ArmedIntervalIsHalfThePeriod : Prop :=
  (Config.pollInterval : Rat) / (Config.unitsPerSecond : Rat) = 1 / 10 ∧
  ∀ p : Word, isFinite p = true →
    (halfInterval p : Rat) / (Config.unitsPerSecond : Rat) = val p / 2 ∧
    (validPeriod p = true →
      (135 : Rat) / 100000 < (halfInterval p : Rat) / (Config.unitsPerSecond : Rat) ∧
      (halfInterval p : Rat) / (Config.unitsPerSecond : Rat) ≤ (135 : Rat) / 1000)

/-- R134, R136: in the timed model an armed timer counts down by the elapsed time, fires exactly when its
interval is over, and then starts its whole interval again; the poll timer also when a homing-class command
answered OK, which leaves its axis running as the target, arms it anew, and by nothing else (R137, log 20). -/
def Obligations.TimersFireAtTheirIntervals : Prop :=
  ∀ (s t : State) (e : Stimulus) (rest : List Stimulus), s.script = e :: rest → timedStep s = .next t →
    (∀ a : Axis, (s.chan a).motion = .running → (t.chan a).motion = .running →
      (e.event = .tick a → e.dt = (s.chan a).tickIn ∧ (t.chan a).tickIn = (s.chan a).halfLatch) ∧
      (e.event ≠ .tick a → (t.chan a).tickIn = (s.chan a).tickIn - e.dt)) ∧
    (s.pollArmed = true → t.pollArmed = true →
      (e.event = .poll → e.dt = s.pollIn ∧ t.pollIn = Config.pollInterval) ∧
      (e.event ≠ .poll → t.pollIn = s.pollIn - e.dt ∨
        e.event = .command ∧ t.pollIn = Config.pollInterval ∧
          ∃ (w : Word) (i : Instr) (tail : List Byte) (a : Axis), decode s.rx = .command i tail ∧
            (i = .returnHome w ∨ i = .runToNext w ∨ i = .runToPrevious w) ∧ w.toNat = a.index ∧
            t.sessAxis = a ∧ (t.chan a).motion = .running ∧ t.tx = s.tx ++ [⟨i.fid, .ok, .ack⟩]))

/-- R134, R136, R137: every timed step keeps each armed timer within one interval of its next firing. -/
def Obligations.TimedStepKeepsPhase : Prop :=
  ∀ s t : State, s.Inv → s.Phased → timedStep s = .next t → t.Phased

/-! ## Codes, and the client's bytes -/

/-- R49, R50: the numeric code of every member of every enumeration; no status code is above 4; and the level
of a direction line is its direction's code (R26). -/
def Obligations.EnumerationCodes : Prop :=
  (Status.ok.code = 0 ∧ Status.invalidAxis.code = 1 ∧ Status.invalidParameter.code = 2 ∧
    Status.flowNotConfigured.code = 3 ∧ Status.notSupported.code = 4) ∧
  (∀ st : Status, st.code.toNat ≤ 4) ∧
  (Axis.x.index = 0 ∧ Axis.y.index = 1 ∧ Axis.z.index = 2) ∧
  (Motion.idle.code = 0 ∧ Motion.running.code = 1) ∧
  (BoardState.waitForConnection.code = 0 ∧ BoardState.connected.code = 1 ∧ BoardState.idle.code = 2 ∧
    BoardState.pumpRunning.code = 3) ∧
  (HomingMode.home.code = 0 ∧ HomingMode.port.code = 1) ∧
  (Level.low.code = 0 ∧ Level.high.code = 1) ∧
  (Direction.forward.code = 0 ∧ Direction.reverse.code = 1) ∧
  ∀ (s : State) (a : Axis), (s.dirOut a).code = (s.chan a).dir.code ∧ s.stepOut a = (s.chan a).pin

/-- R50: HomingMode and the direction are in no frame. Other values of the session's mode and of an axis's
direction make no difference to any command's reply. -/
def Obligations.ModeAndDirectionAreInNoFrame : Prop :=
  ∀ (i : Instr) (s : State) (m : HomingMode) (a : Axis) (d : Direction), ∃ (t u : State) (r : Reply),
    exec i s = .next t ∧ exec i { s.setDir a d with sessMode := m } = .next u ∧
    t.tx = s.tx ++ [r] ∧ u.tx = s.tx ++ [r]

/-- Log 5, the model's choice: on an open connection SEND appends its bytes to what the block has not read yet,
and changes nothing else; without one it is refused. -/
def Obligations.SendResult : Prop :=
  ∀ (s : State) (e : Stimulus) (rest : List Stimulus) (bytes : List Byte), s.script = e :: rest →
    e.event = .send bytes →
    (s.seq = .opened → step s = .next { s.enter e rest with rx := s.rx ++ bytes }) ∧
    (s.seq ≠ .opened → step s = .refused .notOpen)

/-! ## When the timed model steps -/

/-- R134, R136, with log 20: the timed step is the step exactly where the next stimulus is on schedule (time does
not run back, no armed timer is overrun, and a firing comes at the end of its interval), and is refused
elsewhere; with an empty script it is the step. So an armed timer whose interval is over does fire, where no
other armed timer was to fire before it. -/
def Obligations.TimedStepFollowsTheSchedule : Prop :=
  (∀ s : State, s.script = [] → timedStep s = step s) ∧
  ∀ (s : State) (e : Stimulus) (rest : List Stimulus), s.script = e :: rest →
    let inTime : Prop := 0 ≤ e.dt ∧ (∀ b : Axis, (s.chan b).motion = .running → e.dt ≤ (s.chan b).tickIn) ∧
      (s.pollArmed = true → e.dt ≤ s.pollIn)
    let due : Prop := (∀ b : Axis, e.event = .tick b → e.dt = (s.chan b).tickIn) ∧
      (e.event = .poll → e.dt = s.pollIn)
    (inTime ∧ due → timedStep s = step s) ∧
    (¬ (inTime ∧ due) → timedStep s = .refused .offSchedule) ∧
    (∀ a : Axis, inTime → e.event = .tick a → (s.chan a).motion = .running → e.dt = (s.chan a).tickIn →
      ∃ t : State, timedStep s = .next t ∧ (t.chan a).pin ≠ (s.chan a).pin) ∧
    (inTime → e.event = .poll → s.pollArmed = true → e.dt = s.pollIn → ∃ t : State, timedStep s = .next t)
end

