-- ==== Sys2Proof/Laws/Decode.lean ====
section
/-! SUPPORT. Little-endian fields and the cutting of frames. -/

namespace Sys2Proof

@[simp] theorem wordBytes_length (w : Word) : (wordBytes w).length = 4 := rfl

/-- The four bytes of a field give the field back (R34). -/
theorem u32le_wordBytes (w : Word) :
    u32le (w.extractLsb' 0 8) (w.extractLsb' 8 8) (w.extractLsb' 16 8) (w.extractLsb' 24 8) = w := by
  apply BitVec.eq_of_toNat_eq
  have := w.isLt
  simp only [u32le, BitVec.toNat_ofNat, BitVec.extractLsb'_toNat, Nat.shiftRight_eq_div_pow]
  omega

/-- And the other way: the bytes of the field that four bytes hold are those bytes. -/
theorem wordBytes_u32le (b0 b1 b2 b3 : Byte) : wordBytes (u32le b0 b1 b2 b3) = [b0, b1, b2, b3] := by
  have h0 := b0.isLt
  have h1 := b1.isLt
  have h2 := b2.isLt
  have h3 := b3.isLt
  simp only [wordBytes, u32le, List.cons.injEq, and_true]
  refine ⟨?_, ?_, ?_, ?_⟩ <;> apply BitVec.eq_of_toNat_eq <;>
    simp only [BitVec.extractLsb'_toNat, BitVec.toNat_ofNat, Nat.shiftRight_eq_div_pow] <;> omega

@[simp] theorem u32At_wordBytes (w : Word) (rest : List Byte) : u32At (wordBytes w ++ rest) 0 = w := by
  simpa [u32At, wordBytes] using u32le_wordBytes w

/-- Reading a field behind a field. -/
@[simp] theorem u32At_skip (w : Word) (rest : List Byte) (i : Nat) :
    u32At (wordBytes w ++ rest) (i + 4) = u32At rest i := by
  simp [u32At, wordBytes]

theorem Frame.bytes_length (f : Frame) : f.bytes.length = f.payload.length + 12 := by
  simp [Frame.bytes]; omega

theorem Frame.payloadComplete_iff (f : Frame) :
    f.payloadComplete = true ↔ f.payload.length + 12 = f.packetLength.toNat := by
  simp [Frame.payloadComplete]

/-- Cutting the bytes of a complete frame gives the frame and what follows it. -/
theorem cutFrame_bytes (f : Frame) (tail : List Byte)
    (h : f.payload.length + 12 = f.packetLength.toNat) : cutFrame (f.bytes ++ tail) = some (f, tail) := by
  obtain ⟨len, fid, err, payload⟩ := f
  simp only at h
  have hlen : (Frame.bytes ⟨len, fid, err, payload⟩ ++ tail).length = len.toNat + tail.length := by
    rw [List.length_append, Frame.bytes_length]; simp only; omega
  have e0 : u32At (Frame.bytes ⟨len, fid, err, payload⟩ ++ tail) 0 = len := by simp [Frame.bytes]
  have e4 : u32At (Frame.bytes ⟨len, fid, err, payload⟩ ++ tail) 4 = fid := by
    simp [Frame.bytes, u32At_skip (i := 0)]
  have e8 : u32At (Frame.bytes ⟨len, fid, err, payload⟩ ++ tail) 8 = err := by
    simp [Frame.bytes, u32At_skip (i := 4), u32At_skip (i := 0)]
  have ed : (Frame.bytes ⟨len, fid, err, payload⟩ ++ tail).drop 12 = payload ++ tail := by
    simp [Frame.bytes, wordBytes]
  have hp : len.toNat - 12 = payload.length := by omega
  unfold cutFrame
  simp only [e0, e4, e8, ed, hlen, hp, List.take_left', List.drop_left']
  rw [if_neg (by omega), if_neg (by omega)]

/-- A list of at least twelve bytes, taken apart. -/
theorem twelve_bytes : ∀ bytes : List Byte, 12 ≤ bytes.length →
    ∃ b0 b1 b2 b3 b4 b5 b6 b7 b8 b9 b10 b11 tl,
      bytes = b0 :: b1 :: b2 :: b3 :: b4 :: b5 :: b6 :: b7 :: b8 :: b9 :: b10 :: b11 :: tl := by
  intro bytes h
  iterate 12
    obtain _ | ⟨_, bytes⟩ := bytes
    · simp at h
  exact ⟨_, _, _, _, _, _, _, _, _, _, _, _, _, rfl⟩

/-- What a cut frame is made of: the header fields, and as many bytes as the header announces. -/
theorem cutFrame_eq_some {bytes : List Byte} {f : Frame} {rest : List Byte}
    (h : cutFrame bytes = some (f, rest)) :
    12 ≤ bytes.length ∧ f.packetLength.toNat ≤ bytes.length ∧ bytes = f.bytes ++ rest ∧
      f.payload.length = f.packetLength.toNat - 12 := by
  unfold cutFrame at h
  by_cases h12 : bytes.length < 12
  · simp [h12] at h
  by_cases hl : bytes.length < (u32At bytes 0).toNat
  · simp [h12, hl] at h
  simp only [h12, hl, if_false, Option.some.injEq, Prod.mk.injEq] at h
  obtain ⟨rfl, rfl⟩ := h
  refine ⟨by omega, by simpa using hl, ?_, by simp; omega⟩
  obtain ⟨b0, b1, b2, b3, b4, b5, b6, b7, b8, b9, b10, b11, tl, rfl⟩ := twelve_bytes bytes (by omega)
  simp [Frame.bytes, u32At, wordBytes_u32le]

end Sys2Proof
end

