-- ==== Sys2Proof/Laws/State.lean ====
section
/-! SUPPORT. The small lemmas of the state: what each named update leaves of every field, and reading a
channel after it. No later proof need unfold a record update. -/

namespace Sys2Proof.Machine

variable (s : State) (a b : Axis) (c : Channel)

/-! ## Channels -/

@[simp] theorem chan_x : s.chan .x = s.x := rfl
@[simp] theorem chan_y : s.chan .y = s.y := rfl
@[simp] theorem chan_z : s.chan .z = s.z := rfl

@[simp] theorem chan_setChan_same : (s.setChan a c).chan a = c := by cases a <;> rfl

theorem chan_setChan_ne (h : b ≠ a) : (s.setChan a c).chan b = s.chan b := by
  cases a <;> cases b <;> first | rfl | exact absurd rfl h

theorem chan_setChan : (s.setChan a c).chan b = if b = a then c else s.chan b := by
  cases a <;> cases b <;> rfl

@[simp] theorem setChan_chan : s.setChan a (s.chan a) = s := by cases a <;> rfl

@[simp] theorem setChan_setChan (d : Channel) : (s.setChan a c).setChan a d = s.setChan a d := by
  cases a <;> rfl

/-- Two states are equal when their channels and their other fields are. -/
theorem State.ext_chan {s t : State} (hc : ∀ a, s.chan a = t.chan a)
    (hr : { s with x := t.x, y := t.y, z := t.z } = t) : s = t := by
  have hx := hc .x
  have hy := hc .y
  have hz := hc .z
  simp only [chan_x, chan_y, chan_z] at hx hy hz
  rw [← hr, ← hx, ← hy, ← hz]
@[simp] theorem setChan_board : (s.setChan a c).board = s.board := by cases a <;> rfl
@[simp] theorem setChan_seq : (s.setChan a c).seq = s.seq := by cases a <;> rfl
@[simp] theorem setChan_pollArmed : (s.setChan a c).pollArmed = s.pollArmed := by cases a <;> rfl
@[simp] theorem setChan_sessAxis : (s.setChan a c).sessAxis = s.sessAxis := by cases a <;> rfl
@[simp] theorem setChan_sessMode : (s.setChan a c).sessMode = s.sessMode := by cases a <;> rfl
@[simp] theorem setChan_prevPort : (s.setChan a c).prevPort = s.prevPort := by cases a <;> rfl
@[simp] theorem setChan_pollIn : (s.setChan a c).pollIn = s.pollIn := by cases a <;> rfl
@[simp] theorem setChan_homeIn : (s.setChan a c).homeIn = s.homeIn := by cases a <;> rfl
@[simp] theorem setChan_portIn : (s.setChan a c).portIn = s.portIn := by cases a <;> rfl
@[simp] theorem setChan_rx : (s.setChan a c).rx = s.rx := by cases a <;> rfl
@[simp] theorem setChan_tx : (s.setChan a c).tx = s.tx := by cases a <;> rfl
@[simp] theorem setChan_script : (s.setChan a c).script = s.script := by cases a <;> rfl
@[simp] theorem setChan_draws : (s.setChan a c).draws = s.draws := by cases a <;> rfl

/-! ## `setDir` and `setSteps` -/

@[simp] theorem chan_setDir_same (d : Direction) : (s.setDir a d).chan a = { s.chan a with dir := d } := by
  simp [State.setDir]

theorem chan_setDir_ne (d : Direction) (h : b ≠ a) : (s.setDir a d).chan b = s.chan b := by
  simp [State.setDir, chan_setChan_ne, h]

@[simp] theorem chan_setSteps_same (n : Word) :
    (s.setSteps a n).chan a = { s.chan a with steps := n } := by simp [State.setSteps]

theorem chan_setSteps_ne (n : Word) (h : b ≠ a) : (s.setSteps a n).chan b = s.chan b := by
  simp [State.setSteps, chan_setChan_ne, h]

@[simp] theorem setDir_board (d : Direction) : (s.setDir a d).board = s.board := by simp [State.setDir]
@[simp] theorem setDir_seq (d : Direction) : (s.setDir a d).seq = s.seq := by simp [State.setDir]
@[simp] theorem setDir_pollArmed (d : Direction) : (s.setDir a d).pollArmed = s.pollArmed := by simp [State.setDir]
@[simp] theorem setDir_sessAxis (d : Direction) : (s.setDir a d).sessAxis = s.sessAxis := by simp [State.setDir]
@[simp] theorem setDir_sessMode (d : Direction) : (s.setDir a d).sessMode = s.sessMode := by simp [State.setDir]
@[simp] theorem setDir_prevPort (d : Direction) : (s.setDir a d).prevPort = s.prevPort := by simp [State.setDir]
@[simp] theorem setDir_pollIn (d : Direction) : (s.setDir a d).pollIn = s.pollIn := by simp [State.setDir]
@[simp] theorem setDir_homeIn (d : Direction) : (s.setDir a d).homeIn = s.homeIn := by simp [State.setDir]
@[simp] theorem setDir_portIn (d : Direction) : (s.setDir a d).portIn = s.portIn := by simp [State.setDir]
@[simp] theorem setDir_rx (d : Direction) : (s.setDir a d).rx = s.rx := by simp [State.setDir]
@[simp] theorem setDir_tx (d : Direction) : (s.setDir a d).tx = s.tx := by simp [State.setDir]
@[simp] theorem setDir_script (d : Direction) : (s.setDir a d).script = s.script := by simp [State.setDir]
@[simp] theorem setDir_draws (d : Direction) : (s.setDir a d).draws = s.draws := by simp [State.setDir]
@[simp] theorem setSteps_board (n : Word) : (s.setSteps a n).board = s.board := by simp [State.setSteps]
@[simp] theorem setSteps_seq (n : Word) : (s.setSteps a n).seq = s.seq := by simp [State.setSteps]
@[simp] theorem setSteps_pollArmed (n : Word) : (s.setSteps a n).pollArmed = s.pollArmed := by simp [State.setSteps]
@[simp] theorem setSteps_sessAxis (n : Word) : (s.setSteps a n).sessAxis = s.sessAxis := by simp [State.setSteps]
@[simp] theorem setSteps_sessMode (n : Word) : (s.setSteps a n).sessMode = s.sessMode := by simp [State.setSteps]
@[simp] theorem setSteps_prevPort (n : Word) : (s.setSteps a n).prevPort = s.prevPort := by simp [State.setSteps]
@[simp] theorem setSteps_pollIn (n : Word) : (s.setSteps a n).pollIn = s.pollIn := by simp [State.setSteps]
@[simp] theorem setSteps_homeIn (n : Word) : (s.setSteps a n).homeIn = s.homeIn := by simp [State.setSteps]
@[simp] theorem setSteps_portIn (n : Word) : (s.setSteps a n).portIn = s.portIn := by simp [State.setSteps]
@[simp] theorem setSteps_rx (n : Word) : (s.setSteps a n).rx = s.rx := by simp [State.setSteps]
@[simp] theorem setSteps_tx (n : Word) : (s.setSteps a n).tx = s.tx := by simp [State.setSteps]
@[simp] theorem setSteps_script (n : Word) : (s.setSteps a n).script = s.script := by simp [State.setSteps]
@[simp] theorem setSteps_draws (n : Word) : (s.setSteps a n).draws = s.draws := by simp [State.setSteps]

/-! ## Channels after an update of another field: a record update of one field leaves every channel -/

@[simp] theorem chan_with_board (v : BoardState) : State.chan { s with board := v } a = s.chan a := by
  cases a <;> rfl
@[simp] theorem chan_with_seq (v : SeqState) : State.chan { s with seq := v } a = s.chan a := by
  cases a <;> rfl
@[simp] theorem chan_with_pollArmed (v : Bool) : State.chan { s with pollArmed := v } a = s.chan a := by
  cases a <;> rfl
@[simp] theorem chan_with_sessAxis (v : Axis) : State.chan { s with sessAxis := v } a = s.chan a := by
  cases a <;> rfl
@[simp] theorem chan_with_sessMode (v : HomingMode) : State.chan { s with sessMode := v } a = s.chan a := by
  cases a <;> rfl
@[simp] theorem chan_with_prevPort (v : Level) : State.chan { s with prevPort := v } a = s.chan a := by
  cases a <;> rfl
@[simp] theorem chan_with_pollIn (v : Time) : State.chan { s with pollIn := v } a = s.chan a := by
  cases a <;> rfl
@[simp] theorem chan_with_homeIn (v : Level) : State.chan { s with homeIn := v } a = s.chan a := by
  cases a <;> rfl
@[simp] theorem chan_with_portIn (v : Level) : State.chan { s with portIn := v } a = s.chan a := by
  cases a <;> rfl
@[simp] theorem chan_with_rx (v : List Byte) : State.chan { s with rx := v } a = s.chan a := by
  cases a <;> rfl
@[simp] theorem chan_with_tx (v : List Reply) : State.chan { s with tx := v } a = s.chan a := by
  cases a <;> rfl
@[simp] theorem chan_with_script (v : List Stimulus) : State.chan { s with script := v } a = s.chan a := by
  cases a <;> rfl
@[simp] theorem chan_with_draws (v : Nat) : State.chan { s with draws := v } a = s.chan a := by
  cases a <;> rfl

/-! ## Replies -/

variable (fid : Word) (st : Status) (p : Payload)

@[simp] theorem chan_reply : (s.reply fid st p).chan a = s.chan a := by cases a <;> rfl
@[simp] theorem reply_board : (s.reply fid st p).board = s.board := rfl
@[simp] theorem reply_seq : (s.reply fid st p).seq = s.seq := rfl
@[simp] theorem reply_pollArmed : (s.reply fid st p).pollArmed = s.pollArmed := rfl
@[simp] theorem reply_sessAxis : (s.reply fid st p).sessAxis = s.sessAxis := rfl
@[simp] theorem reply_sessMode : (s.reply fid st p).sessMode = s.sessMode := rfl
@[simp] theorem reply_prevPort : (s.reply fid st p).prevPort = s.prevPort := rfl
@[simp] theorem reply_pollIn : (s.reply fid st p).pollIn = s.pollIn := rfl
@[simp] theorem reply_homeIn : (s.reply fid st p).homeIn = s.homeIn := rfl
@[simp] theorem reply_portIn : (s.reply fid st p).portIn = s.portIn := rfl
@[simp] theorem reply_rx : (s.reply fid st p).rx = s.rx := rfl
@[simp] theorem reply_tx : (s.reply fid st p).tx = s.tx ++ [⟨fid, st, p⟩] := rfl
@[simp] theorem reply_script : (s.reply fid st p).script = s.script := rfl
@[simp] theorem reply_draws : (s.reply fid st p).draws = s.draws := rfl

/-! ## The transition's entry and the passing of time -/

theorem chan_advance (dt : Time) : (s.advance dt).chan a = (s.chan a).advance dt := by cases a <;> rfl

theorem chan_enter (e : Stimulus) (rest : List Stimulus) :
    (s.enter e rest).chan a = (s.chan a).advance e.dt := by cases a <;> rfl

@[simp] theorem advance_period (dt : Time) : (c.advance dt).period = c.period := by
  unfold Channel.advance; split <;> rfl
@[simp] theorem advance_configured (dt : Time) : (c.advance dt).configured = c.configured := by
  unfold Channel.advance; split <;> rfl
@[simp] theorem advance_dir (dt : Time) : (c.advance dt).dir = c.dir := by
  unfold Channel.advance; split <;> rfl
@[simp] theorem advance_motion (dt : Time) : (c.advance dt).motion = c.motion := by
  unfold Channel.advance; split <;> rfl
@[simp] theorem advance_steps (dt : Time) : (c.advance dt).steps = c.steps := by
  unfold Channel.advance; split <;> rfl
@[simp] theorem advance_pin (dt : Time) : (c.advance dt).pin = c.pin := by
  unfold Channel.advance; split <;> rfl
@[simp] theorem advance_halfLatch (dt : Time) : (c.advance dt).halfLatch = c.halfLatch := by
  unfold Channel.advance; split <;> rfl

theorem advance_tickIn (dt : Time) :
    (c.advance dt).tickIn = if c.motion = .running then c.tickIn - dt else c.tickIn := by
  unfold Channel.advance; split <;> simp_all

@[simp] theorem enter_board (e : Stimulus) (rest : List Stimulus) : (s.enter e rest).board = s.board := rfl
@[simp] theorem enter_seq (e : Stimulus) (rest : List Stimulus) : (s.enter e rest).seq = s.seq := rfl
@[simp] theorem enter_pollArmed (e : Stimulus) (rest : List Stimulus) : (s.enter e rest).pollArmed = s.pollArmed := rfl
@[simp] theorem enter_sessAxis (e : Stimulus) (rest : List Stimulus) : (s.enter e rest).sessAxis = s.sessAxis := rfl
@[simp] theorem enter_sessMode (e : Stimulus) (rest : List Stimulus) : (s.enter e rest).sessMode = s.sessMode := rfl
@[simp] theorem enter_prevPort (e : Stimulus) (rest : List Stimulus) : (s.enter e rest).prevPort = s.prevPort := rfl
@[simp] theorem enter_rx (e : Stimulus) (rest : List Stimulus) : (s.enter e rest).rx = s.rx := rfl
@[simp] theorem enter_tx (e : Stimulus) (rest : List Stimulus) : (s.enter e rest).tx = s.tx := rfl
@[simp] theorem enter_draws (e : Stimulus) (rest : List Stimulus) : (s.enter e rest).draws = s.draws := rfl
@[simp] theorem enter_homeIn (e : Stimulus) (rest : List Stimulus) : (s.enter e rest).homeIn = e.home := rfl
@[simp] theorem enter_portIn (e : Stimulus) (rest : List Stimulus) : (s.enter e rest).portIn = e.port := rfl
@[simp] theorem enter_script (e : Stimulus) (rest : List Stimulus) : (s.enter e rest).script = rest := rfl

theorem enter_pollIn (e : Stimulus) (rest : List Stimulus) :
    (s.enter e rest).pollIn = if s.pollArmed then s.pollIn - e.dt else s.pollIn := rfl

/-! ## `AllIdle` -/

theorem allIdle_iff : s.allIdle = true ↔ ∀ a, (s.chan a).motion = .idle := by
  constructor
  · intro h a
    have h := of_decide_eq_true h
    cases a <;> simp [h]
  · intro h
    exact decide_eq_true ⟨h .x, h .y, h .z⟩

theorem allIdle_false_iff : s.allIdle = false ↔ ∃ a, (s.chan a).motion = .running := by
  constructor
  · intro h
    by_contra hc
    have : s.allIdle = true := (allIdle_iff s).2 fun a => by
      cases hm : (s.chan a).motion with
      | idle => rfl
      | running => exact absurd ⟨a, hm⟩ hc
    simp [this] at h
  · rintro ⟨a, ha⟩
    cases h : s.allIdle with
    | false => rfl
    | true => simp [(allIdle_iff s).1 h a] at ha

end Sys2Proof.Machine
end

