-- ==== Sys2Proof/Laws/Ops.lean ====
section
/-! SUPPORT. One lemma per shared operation, which says once everything it can do. -/

namespace Sys2Proof.Machine

/-! ## The axis operand -/

theorem axisOf_eq_some (w : Word) (a : Axis) : axisOf w = some a ↔ w.toNat = a.index := by
  unfold axisOf
  split <;> rename_i h
  · cases a <;> simp [h, Axis.index]
  · cases a <;> simp [h, Axis.index]
  · cases a <;> simp [h, Axis.index]
  · cases a <;> simp_all [Axis.index]

theorem axisOf_eq_none (w : Word) : axisOf w = none ↔ 3 ≤ w.toNat := by
  constructor
  · intro h
    by_contra hlt
    have : w.toNat = 0 ∨ w.toNat = 1 ∨ w.toNat = 2 := by omega
    rcases this with h0 | h0 | h0
    · simp [(axisOf_eq_some w .x).2 h0] at h
    · simp [(axisOf_eq_some w .y).2 h0] at h
    · simp [(axisOf_eq_some w .z).2 h0] at h
  · intro h
    cases hx : axisOf w with
    | none => rfl
    | some a =>
      have := (axisOf_eq_some w a).1 hx
      cases a <;> simp [Axis.index] at this <;> omega

/-! ## The generator -/

/-- Everything `GenRun` can do (R61): fail without effect, succeed without effect, or start the axis. -/
theorem genRun_cases (a : Axis) (s : State) :
    ((s.chan a).configured = false ∧ genRun a s = (false, s)) ∨
    ((s.chan a).configured = true ∧ (s.chan a).motion = .running ∧ genRun a s = (true, s)) ∨
    ((s.chan a).configured = true ∧ (s.chan a).motion = .idle ∧
      genRun a s = (true, s.setChan a { s.chan a with
        steps := 0, halfLatch := halfInterval (s.chan a).period,
        tickIn := halfInterval (s.chan a).period, motion := .running })) := by
  cases hc : (s.chan a).configured
  · simp [genRun, hc]
  · cases hm : (s.chan a).motion <;> simp [genRun, hc, hm]

@[simp] theorem chan_genStop_same (a : Axis) (s : State) :
    (genStop a s).chan a = { s.chan a with motion := .idle, pin := .low } := by simp [genStop]

theorem chan_genStop_ne (a b : Axis) (s : State) (h : b ≠ a) : (genStop a s).chan b = s.chan b := by
  simp [genStop, chan_setChan_ne, h]

/-! ## The board -/

theorem boardIdleIfAllIdle_cases (s : State) :
    (s.allIdle = true ∧ boardIdleIfAllIdle s = { s with board := .idle }) ∨
    (s.allIdle = false ∧ boardIdleIfAllIdle s = s) := by
  unfold boardIdleIfAllIdle
  cases s.allIdle <;> simp

@[simp] theorem chan_boardIdleIfAllIdle (s : State) (a : Axis) :
    (boardIdleIfAllIdle s).chan a = s.chan a := by
  rcases boardIdleIfAllIdle_cases s with ⟨_, h⟩ | ⟨_, h⟩ <;> simp [h]

/-- `AllIdle()` after the stop of axis `a` depends on the other axes alone. -/
theorem allIdle_setChan_idle (s : State) (a : Axis) (c : Channel) (h : c.motion = .idle) :
    (s.setChan a c).allIdle = true ↔ ∀ b, b ≠ a → (s.chan b).motion = .idle := by
  rw [allIdle_iff]
  constructor
  · intro hall b hb
    simpa [chan_setChan_ne, hb] using hall b
  · intro hall b
    by_cases hb : b = a
    · subst hb; simp [h]
    · simpa [chan_setChan_ne, hb] using hall b hb

/-! ## The detector -/

theorem detect_home (s : State) (h : s.sessMode = .home) :
    detect s = (atHome s.homeIn s.portIn, s.prevPort) := by
  simp [detect, h, State.sampleHome, State.samplePort]

theorem detect_port (s : State) (h : s.sessMode = .port) :
    detect s = (portEdge s.prevPort s.portIn, s.portIn) := by
  simp [detect, h, State.samplePort]

/-- Everything a poll can do (R70 to R74). -/
theorem doPoll_cases (s : State) :
    (s.pollArmed = false ∧ doPoll s = .refused .pollTimerDisarmed) ∨
    (s.pollArmed = true ∧ (s.chan s.sessAxis).motion = .idle ∧
      doPoll s = .next { s with pollArmed := false }) ∨
    (s.pollArmed = true ∧ (s.chan s.sessAxis).motion = .running ∧ (detect s).1 = true ∧
      doPoll s = .next (edgeAction s.sessAxis
        { s with prevPort := (detect s).2, pollIn := Config.pollInterval })) ∨
    (s.pollArmed = true ∧ (s.chan s.sessAxis).motion = .running ∧ (detect s).1 = false ∧
      doPoll s = .next { s with prevPort := (detect s).2, pollIn := Config.pollInterval }) := by
  cases ha : s.pollArmed
  · simp [doPoll, ha]
  · cases hm : (s.chan s.sessAxis).motion
    · simp [doPoll, ha, hm]
    · cases hd : (detect s).1 <;> simp [doPoll, ha, hm, hd]

/-! ## The timers -/

theorem doTick_running (a : Axis) (s : State) (h : (s.chan a).motion = .running) :
    doTick a s = .next (s.setChan a (s.chan a).tick) := by
  simp [doTick, State.stepTimerArmed, h]

theorem doTick_idle (a : Axis) (s : State) (h : (s.chan a).motion = .idle) :
    doTick a s = .refused (.stepTimerDisarmed a) := by
  simp [doTick, State.stepTimerArmed, h]

/-! ## The homing-class commands' tail -/

/-- Everything `runAndArm` can do: reply FLOW_NOT_CONFIGURED from the reverted state, or run the axis, arm
the session and set the board. -/
theorem runAndArm_cases (fid : Word) (a : Axis) (m : HomingMode) (revert : State → State) (s : State) :
    ((s.chan a).configured = false ∧
      runAndArm fid a m revert s = .next ((revert s).raise fid .flowNotConfigured)) ∨
    ((s.chan a).configured = true ∧
      runAndArm fid a m revert s =
        .next ({ sessionArm a m (genRun a s).2 with board := .pumpRunning }.ack fid)) := by
  rcases genRun_cases a s with ⟨hc, h⟩ | ⟨hc, _, h⟩ | ⟨hc, _, h⟩
  · exact .inl ⟨hc, by simp [runAndArm, h]⟩
  · exact .inr ⟨hc, by simp [runAndArm, h]⟩
  · exact .inr ⟨hc, by simp [runAndArm, h]⟩

/-- Everything the flow-rate field can be (R79). -/
theorem flowField_cases (a : Axis) (s : State) :
    (s.board ≠ .pumpRunning ∧ flowField a s = (0, s)) ∨
    (s.board = .pumpRunning ∧ ((s.chan a).configured && hasFlow (s.chan a).period) = true ∧
      flowField a s = (flow (s.chan a).period, s)) ∨
    (s.board = .pumpRunning ∧ ((s.chan a).configured && hasFlow (s.chan a).period) = false ∧
      flowField a s = (Config.freeFlow s.draws, { s with draws := s.draws + 1 })) := by
  unfold flowField
  by_cases hb : s.board = .pumpRunning
  · cases (s.chan a).configured && hasFlow (s.chan a).period <;> simp [hb]
  · simp [hb]

end Sys2Proof.Machine
end

