-- ==== Sys2Proof/Laws/PerInstr.lean ====
section
/-! SUPPORT. The families of lemmas stated for every instruction. -/

namespace Sys2Proof.Laws.AdmittedFrame

/-- The request frame of an instruction is one the spec admits (R46, R55), whatever its `error` field, and
its bytes are as many as its format has. -/
def Statement (i : Instr) : Prop :=
  ∀ error : Word, (i.frame error).wellFormed (some i.format) = true ∧
    (encodeWith error i).length = i.format.length

theorem getStatus (axis : Word) : Statement (.getStatus axis) := fun _ => ⟨rfl, rfl⟩
theorem runStepper (axis : Word) : Statement (.runStepper axis) := fun _ => ⟨rfl, rfl⟩
theorem stopStepper (axis : Word) : Statement (.stopStepper axis) := fun _ => ⟨rfl, rfl⟩
theorem returnHome (axis : Word) : Statement (.returnHome axis) := fun _ => ⟨rfl, rfl⟩
theorem runToNext (axis : Word) : Statement (.runToNext axis) := fun _ => ⟨rfl, rfl⟩
theorem runToPrevious (axis : Word) : Statement (.runToPrevious axis) := fun _ => ⟨rfl, rfl⟩
theorem getSysInfo : Statement .getSysInfo := fun _ => ⟨rfl, rfl⟩
theorem setConfig (axis period : Word) : Statement (.setConfig axis period) := fun _ => ⟨rfl, rfl⟩

end Sys2Proof.Laws.AdmittedFrame
end

