-- ==== Sys2Proof/Laws/Step.lean ====
section
/-! SUPPORT. What a step can do, said once. -/

namespace Sys2Proof.Machine

theorem step_nil (s : State) (h : s.script = []) : step s = idleStep s := by simp [step, h]

theorem step_cons (s : State) (e : Stimulus) (rest : List Stimulus) (h : s.script = e :: rest) :
    step s = perform e.event (s.enter e rest) := by simp [step, h]

/-! ## The sequencer events: when they complete, and with what -/

theorem doListen_next (s t : State) : doListen s = .next t ↔
    s.seq = .preListen ∧ t = { s with board := .waitForConnection, seq := .listening } := by
  cases h : s.seq <;> simp [doListen, h, eq_comm (b := t)]

theorem doAccept_next (s t : State) : doAccept s = .next t ↔
    s.seq = .listening ∧ t = { s with board := .idle, seq := .opened } := by
  cases h : s.seq <;> simp [doAccept, h, eq_comm (b := t)]

theorem doDisconnect_next (s t : State) : doDisconnect s = .next t ↔
    s.seq = .opened ∧ t = { s with board := .waitForConnection, seq := .preListen, rx := [] } := by
  cases h : s.seq <;> simp [doDisconnect, h, eq_comm (b := t)]

theorem doSend_next (bytes : List Byte) (s t : State) : doSend bytes s = .next t ↔
    s.seq = .opened ∧ t = { s with rx := s.rx ++ bytes } := by
  cases h : s.seq <;> simp [doSend, h, eq_comm (b := t)]

/-- A command completes on an open connection: as the rule of the decoded command, or with NOT_SUPPORTED. -/
theorem receiveCommand_next (s t : State) : receiveCommand s = .next t ↔
    s.seq = .opened ∧
      ((∃ i rest, decode s.rx = .command i rest ∧ exec i { s with rx := rest } = .next t) ∨
        ∃ fid rest, decode s.rx = .unsupported fid rest ∧
          t = { s with rx := rest }.raise fid .notSupported) := by
  cases h : s.seq
  · simp [receiveCommand, h]
  · simp [receiveCommand, h]
  · cases hd : decode s.rx <;> simp [receiveCommand, dispatchFrame, h, hd, eq_comm (b := t)]

theorem doTick_next (a : Axis) (s t : State) : doTick a s = .next t ↔
    (s.chan a).motion = .running ∧ t = s.setChan a (s.chan a).tick := by
  cases hm : (s.chan a).motion
  · simp [doTick_idle a s hm]
  · simp [doTick_running a s hm, eq_comm]

/-- Everything a step can do: with an empty script the block listens or waits; otherwise it performs the
next transition of the script, in the state entered with it. -/
theorem step_next_cases {s t : State} (h : step s = .next t) :
    (s.script = [] ∧ s.seq = .preListen ∧ t = { s with board := .waitForConnection, seq := .listening }) ∨
    (s.script = [] ∧ s.seq ≠ .preListen ∧ t = s) ∨
    ∃ e rest, s.script = e :: rest ∧ perform e.event (s.enter e rest) = .next t := by
  by_cases hs : s.script = []
  · rw [step_nil s hs] at h
    cases hq : s.seq <;> simp only [idleStep, hq] at h
    · exact .inl ⟨hs, rfl, ((doListen_next s t).1 h).2⟩
    · exact .inr (.inl ⟨hs, by simp, by simpa [eq_comm] using h⟩)
    · exact .inr (.inl ⟨hs, by simp, by simpa [eq_comm] using h⟩)
  · obtain ⟨e, rest, hs⟩ := List.exists_cons_of_ne_nil hs
    exact .inr (.inr ⟨e, rest, hs, by rw [← step_cons s e rest hs]; exact h⟩)

/-! ## The timed step -/

theorem timedStep_next {s t : State} (h : timedStep s = .next t) : s.onTime = true ∧ step s = .next t := by
  unfold timedStep at h
  cases ho : s.onTime <;> simp_all

end Sys2Proof.Machine
end

