-- ==== Sys2Proof/Tests/Slice0.lean ====
section
/-! SUPPORT. Tests. Expected results come from 95_test_vectors.md (the vector is named) or from the rule
named; the last part shows, for every statement with hypotheses, values that meet them. -/

namespace Sys2Proof.Machine

/-! ## Small states -/

/-- After `LISTEN` and `ACCEPT` from reset. -/
def openedState : State := { State.reset with seq := .opened, board := .idle }

/-- An axis configured with 0.01 s. -/
def readyChannel : Channel := { Channel.reset with period := 0x3C23D70A, configured := true }

/-- The same axis just started. -/
def runningChannel : Channel :=
  { readyChannel with
    motion := .running, halfLatch := halfInterval 0x3C23D70A, tickIn := halfInterval 0x3C23D70A }

def readyX : State := { openedState with x := readyChannel }

def runningX : State := { openedState with x := runningChannel, board := .pumpRunning }

/-- X homing in mode HOME, as after RETURN_HOME. -/
def homingX : State :=
  { runningX with
    x := { runningChannel with dir := .reverse }
    pollArmed := true, sessAxis := .x, sessMode := .home, pollIn := Config.pollInterval }

/-- Y running to a port, the port sensor last seen at `prev`. -/
def portY (prev : Level) : State :=
  { openedState with
    y := runningChannel, board := .pumpRunning, homeIn := .high
    pollArmed := true, sessAxis := .y, sessMode := .port, prevPort := prev, pollIn := Config.pollInterval }

/-- The environment chooses one transition, with these levels, at once. -/
def State.ask (s : State) (h p : Level) (e : Event) : State := { s with script := [⟨0, h, p, e⟩] }

/-- The next state of an answer, if it is one. -/
def nextOf : Result → Option State
  | .next t => some t
  | .fault _ => none
  | .refused _ => none

/-- The reason of a refusal, if it is one. -/
def refusalOf : Result → Option Refusal
  | .next _ => none
  | .fault _ => none
  | .refused r => some r

/-- A view of the next state, if there is one. -/
def see {α : Type} (f : State → α) (r : Result) : Option α := (nextOf r).map f

/-! ## Constants (R5) -/

theorem test_three_axes : [Axis.x, .y, .z].length = Config.nAxes ∧ [Axis.x, .y, .z].map Axis.index = [0, 1, 2] := by
  decide

theorem test_counter_width (c : Channel) : c.steps.toNat < 2 ^ Config.counterWidth := c.steps.isLt

/-! ## WellFormed: one ill-formed frame for each check -/

theorem test_wf_accepts : Frame.wellFormed ⟨16, 1, 5, [1, 0, 0, 0]⟩ (some .a) = true := by decide

theorem test_wf_refuses_length_below_header :
    Frame.coversHeader ⟨8, 1, 0, []⟩ = false ∧ Frame.wellFormed ⟨8, 1, 0, []⟩ none = false := by decide

theorem test_wf_refuses_incomplete_payload :
    Frame.payloadComplete ⟨16, 1, 0, [1, 0, 0]⟩ = false ∧
      Frame.wellFormed ⟨16, 1, 0, [1, 0, 0]⟩ (some .a) = false := by decide

theorem test_wf_refuses_wrong_format :
    Frame.fitsFormat ⟨12, 1, 0, []⟩ .a = false ∧ Frame.wellFormed ⟨12, 1, 0, []⟩ (some .a) = false := by decide

/-! ## Decoding: V-E1 to V-E9 are `WrittenFramesDecode`; here each command's word, and V-E18 -/

theorem test_written_frames_decode : Obligations.WrittenFramesDecode := by
  unfold Obligations.WrittenFramesDecode; decide

theorem test_decode_getStatus :
    decode [0x10, 0, 0, 0, 0, 0, 0, 0, 0, 0, 0, 0, 0, 0, 0, 0] = .command (.getStatus 0) [] := by decide

theorem test_decode_runStepper :
    decode [0x10, 0, 0, 0, 1, 0, 0, 0, 0, 0, 0, 0, 1, 0, 0, 0] = .command (.runStepper 1) [] := by decide

theorem test_decode_stopStepper :
    decode [0x10, 0, 0, 0, 2, 0, 0, 0, 0, 0, 0, 0, 2, 0, 0, 0] = .command (.stopStepper 2) [] := by decide

theorem test_decode_returnHome :
    decode [0x10, 0, 0, 0, 3, 0, 0, 0, 0, 0, 0, 0, 0, 0, 0, 0] = .command (.returnHome 0) [] := by decide

theorem test_decode_runToNext :
    decode [0x10, 0, 0, 0, 4, 0, 0, 0, 0, 0, 0, 0, 1, 0, 0, 0] = .command (.runToNext 1) [] := by decide

theorem test_decode_runToPrevious :
    decode [0x10, 0, 0, 0, 5, 0, 0, 0, 0, 0, 0, 0, 2, 0, 0, 0] = .command (.runToPrevious 2) [] := by decide

theorem test_decode_getSysInfo :
    decode [0x0C, 0, 0, 0, 6, 0, 0, 0, 0, 0, 0, 0] = .command .getSysInfo [] := by decide

/-- V-E8, with one byte of the next frame behind it. -/
theorem test_decode_setConfig :
    decode [0x14, 0, 0, 0, 7, 0, 0, 0, 0, 0, 0, 0, 0, 0, 0, 0, 0x0A, 0xD7, 0x23, 0x3C, 0x10] =
      .command (.setConfig 0 0x3C23D70A) [0x10] := by decide

/-- V-E18: `packetLength = 8`, and `fid = 1` with 12 or 20. -/
theorem test_decode_malformed :
    decode [8, 0, 0, 0, 1, 0, 0, 0, 0, 0, 0, 0] = .malformed (.lengthBelowHeader 8) ∧
    decode [12, 0, 0, 0, 1, 0, 0, 0, 0, 0, 0, 0] = .malformed (.lengthMismatch 1 12) ∧
    decode [20, 0, 0, 0, 1, 0, 0, 0, 0, 0, 0, 0, 0, 0, 0, 0, 0, 0, 0, 0] =
      .malformed (.lengthMismatch 1 20) := by decide

/-- V-C28: fid 9 and fid 0xFFFFFFFF. -/
theorem test_decode_unsupported :
    decode [12, 0, 0, 0, 9, 0, 0, 0, 0, 0, 0, 0] = .unsupported 9 [] ∧
    decode [12, 0, 0, 0, 0xFF, 0xFF, 0xFF, 0xFF, 0, 0, 0, 0] = .unsupported 0xFFFFFFFF [] := by decide

/-- The opcode table's words: 32 bits of `fid`, the operand fields zero. -/
theorem test_table_words :
    decodeTableWord 32 0 = some (.getStatus 0) ∧ decodeTableWord 32 1 = some (.runStepper 0) ∧
    decodeTableWord 32 2 = some (.stopStepper 0) ∧ decodeTableWord 32 3 = some (.returnHome 0) ∧
    decodeTableWord 32 4 = some (.runToNext 0) ∧ decodeTableWord 32 5 = some (.runToPrevious 0) ∧
    decodeTableWord 32 6 = some .getSysInfo ∧ decodeTableWord 32 7 = some (.setConfig 0 0) ∧
    decodeTableWord 32 8 = none := by decide

/-- With operand bits: `fid` bits 31..0, `error` 63..32, `axis` 95..64, `period` 127..96. -/
theorem test_table_words_with_operands :
    decodeTableWord 128 (7 + 2 ^ 64 * 2 + 2 ^ 96 * 0x3DCCCCCD) = some (.setConfig 2 0x3DCCCCCD) ∧
    decodeTableWord 96 (1 + 2 ^ 64 * 1) = some (.runStepper 1) := by decide

/-- A table word placed at reset is received and run by the next step: SET_CONFIG with period 0 is answered
INVALID_PARAMETER (V-C10), RUN_STEPPER of an unconfigured axis FLOW_NOT_CONFIGURED (V-C15). -/
theorem test_fetched_words_run :
    see State.tx (step (State.reset.withFetchWord 32 7)) = some [⟨7, .invalidParameter, .ack⟩] ∧
    see State.tx (step (State.reset.withFetchWord 32 1)) = some [⟨1, .flowNotConfigured, .ack⟩] ∧
    see State.tx (step (State.reset.withFetchWord 32 2)) = some [⟨2, .ok, .ack⟩] := by decide

/-! ## Reply bytes -/

/-- V-E10 to V-E14. -/
theorem test_reply_ack_bytes :
    encodeReply ⟨1, .ok, .ack⟩ = [0x0C, 0, 0, 0, 1, 0, 0, 0, 0, 0, 0, 0] ∧
    encodeReply ⟨0, .invalidAxis, .ack⟩ = [0x0C, 0, 0, 0, 0, 0, 0, 0, 1, 0, 0, 0] ∧
    encodeReply ⟨7, .invalidParameter, .ack⟩ = [0x0C, 0, 0, 0, 7, 0, 0, 0, 2, 0, 0, 0] ∧
    encodeReply ⟨5, .flowNotConfigured, .ack⟩ = [0x0C, 0, 0, 0, 5, 0, 0, 0, 3, 0, 0, 0] ∧
    encodeReply ⟨9, .notSupported, .ack⟩ = [0x0C, 0, 0, 0, 9, 0, 0, 0, 4, 0, 0, 0] := by decide

/-- V-E15. -/
theorem test_reply_status_bytes :
    encodeReply ⟨0, .ok, .status .running .pumpRunning .high .high 0x3CA3D70A 0x41F00000⟩ =
      [0x24, 0, 0, 0, 0, 0, 0, 0, 0, 0, 0, 0, 1, 0, 0, 0, 3, 0, 0, 0, 1, 0, 0, 0, 1, 0, 0, 0,
        0x0A, 0xD7, 0xA3, 0x3C, 0, 0, 0xF0, 0x41] := by decide

/-- V-E19: the field of "DEV". -/
theorem test_sysinfo_field_bytes :
    sysInfoField [0x43, 0x44, 0x55] = [0x44, 0x45, 0x56] ++ List.replicate 29 0 := by decide

/-- A text of 40 characters is cut to 31, and the last byte is the terminating zero (R47). -/
theorem test_sysinfo_field_cut :
    sysInfoField (List.replicate 40 0x40) = List.replicate 31 0x41 ++ [0] := by
  decide +kernel

/-- R14, R26, R50: the lines and the codes of an axis running in reverse. -/
theorem test_direction_line :
    homingX.dirOut .x = .high ∧ homingX.dirOut .y = .low ∧ Direction.reverse.code = 1 ∧
      HomingMode.port.code = 1 ∧ Motion.running.code = 1 := by decide

/-! ## Commands -/

/-- V-C1: after ACCEPT, GET_STATUS X answers motion 0, board 2, the levels, and flow 0.0. -/
theorem test_getStatus_after_accept :
    exec (.getStatus 0) { openedState with homeIn := .low } = .next { openedState with
      homeIn := .low,
      tx := [⟨0, .ok, .status .idle .idle .low .high (volume 0) 0⟩] } := rfl

/-- V-C5. -/
theorem test_getStatus_invalid_axis :
    ([3, 0x100, 0xFFFFFFFF].all fun w =>
      see State.tx (exec (.getStatus w) openedState) = some [⟨0, .invalidAxis, .ack⟩]) = true := by decide

/-- V-C27. -/
theorem test_getSysInfo_keeps_state :
    see (fun t => { t with tx := [] }) (exec .getSysInfo runningX) = some runningX := by
  decide +kernel

/-- V-C6 to V-C9: the boundary words. -/
theorem test_setConfig_boundaries :
    see State.tx (exec (.setConfig 0 0x3B30F27C) openedState) = some [⟨7, .ok, .ack⟩] ∧
    see State.tx (exec (.setConfig 0 0x3B30F27B) openedState) = some [⟨7, .invalidParameter, .ack⟩] ∧
    see State.tx (exec (.setConfig 0 0x3E8A3D70) openedState) = some [⟨7, .ok, .ack⟩] ∧
    see State.tx (exec (.setConfig 0 0x3E8A3D71) openedState) = some [⟨7, .invalidParameter, .ack⟩] := by decide

/-- V-G13: reconfiguring a running axis leaves the latch of its timer. -/
theorem test_setConfig_while_running :
    see (fun t => t.x) (exec (.setConfig 0 0x3CA3D70A) runningX) =
      some { runningChannel with period := 0x3CA3D70A } := by decide

/-- V-C10: NaN, the infinities, the zeros, a subnormal, -0.01, 0.28, 0.3. -/
theorem test_invalid_periods :
    ([0x7FC00000, 0x7F800000, 0xFF800000, 0x00000000, 0x80000000, 0x00000001, 0xBC23D70A, 0x3E8F5C29,
      0x3E99999A].any validPeriod) = false := by decide

/-- V-C13. -/
theorem test_runStepper_starts :
    see (fun t => (t.x.motion, t.x.steps, t.board)) (exec (.runStepper 0)
      { readyX with x := { readyChannel with steps := 37 } }) = some (.running, 0, .pumpRunning) := by decide

/-- V-C14: running already, the count is kept, and the board written again (P5, step 7). -/
theorem test_runStepper_running :
    see (fun t => (t.x.steps, t.board)) (exec (.runStepper 0)
      { runningX with x := { runningChannel with steps := 4 }, board := .idle }) =
      some (4, .pumpRunning) := by decide

/-- V-C16. -/
theorem test_stopStepper_last :
    see (fun t => (t.x.motion, t.x.pin, t.x.dir, t.x.steps, t.board)) (exec (.stopStepper 0)
      { runningX with x := { runningChannel with steps := 812, dir := .reverse, pin := .high } }) =
      some (.idle, .low, .forward, 0, .idle) := by decide

/-- V-C17: Y still running. -/
theorem test_stopStepper_other_runs :
    see (fun t => (t.x.motion, t.y.motion, t.y.steps, t.board)) (exec (.stopStepper 0)
      { runningX with y := { runningChannel with steps := 50 } }) =
      some (.idle, .running, 50, .pumpRunning) := by decide

/-- V-C19. -/
theorem test_returnHome_starts :
    see (fun t => (t.x.dir, t.x.motion, t.pollArmed, t.sessAxis, t.sessMode, t.board))
      (exec (.returnHome 0) { readyX with portIn := .low }) =
      some (.reverse, .running, true, .x, .home, .pumpRunning) := by decide

/-- V-C20, S12: at home nothing happens, configured or not. -/
theorem test_returnHome_at_home :
    see (fun t => { t with tx := [] }) (exec (.returnHome 1) { openedState with homeIn := .low, portIn := .low }) =
      some { openedState with homeIn := .low, portIn := .low } := by decide

/-- V-C23. -/
theorem test_runToNext_seeds_low :
    see (fun t => (t.y.motion, t.y.dir, t.sessAxis, t.sessMode, t.prevPort))
      (exec (.runToNext 1) { openedState with y := readyChannel, portIn := .low }) =
      some (.running, .forward, .y, .port, .low) := by decide

/-- V-C24, D30: the direction stays. -/
theorem test_runToNext_keeps_direction :
    see (fun t => (t.y.dir, t.sessAxis, t.pollArmed))
      (exec (.runToNext 1) { openedState with y := { runningChannel with dir := .reverse } }) =
      some (.reverse, .y, true) := by decide

/-- V-C25. -/
theorem test_runToPrevious_starts :
    see (fun t => (t.z.dir, t.z.motion, t.sessAxis, t.sessMode, t.prevPort))
      (exec (.runToPrevious 2) { openedState with z := readyChannel }) =
      some (.reverse, .running, .z, .port, .high) := by decide

/-- S13: unconfigured, the direction is forward again. -/
theorem test_runToPrevious_unconfigured :
    see (fun t => (t.z.dir, t.pollArmed, t.tx)) (exec (.runToPrevious 2) openedState) =
      some (.forward, false, [⟨5, .flowNotConfigured, .ack⟩]) := by decide

/-! ## Events -/

/-- V-G7, V-G8, V-G9, V-G10. -/
theorem test_tick :
    see (fun t => (t.x.pin, t.x.steps)) (doTick .x { runningX with x := { runningChannel with steps := 4 } }) =
      some (.high, 5) ∧
    see (fun t => (t.x.pin, t.x.steps))
      (doTick .x { runningX with x := { runningChannel with steps := 5, pin := .high } }) = some (.low, 5) ∧
    see (fun t => (t.x.pin, t.x.steps))
      (doTick .x { runningX with x := { runningChannel with steps := 0xFFFFFFFF } }) = some (.high, 0) ∧
    refusalOf (doTick .x readyX) = some (.stepTimerDisarmed .x) := by decide

/-- V-D1, V-D2, V-D5. -/
theorem test_poll_home :
    see (fun t => (t.pollArmed, t.x.motion, t.x.dir, t.board)) (step (homingX.ask .low .low .poll)) =
      some (false, .idle, .forward, .idle) ∧
    see (fun t => (t.pollArmed, t.x.motion, t.x.dir, t.board)) (step (homingX.ask .low .high .poll)) =
      some (true, .running, .reverse, .pumpRunning) ∧
    see (fun t => (t.x.motion, t.board))
      (step ({ homingX with y := runningChannel }.ask .low .low .poll)) = some (.idle, .pumpRunning) := by decide

/-- V-D6, V-D8. -/
theorem test_poll_port :
    see (fun t => (t.pollArmed, t.y.motion, t.board)) (step ((portY .high).ask .high .low .poll)) =
      some (false, .idle, .idle) ∧
    see (fun t => (t.pollArmed, t.prevPort)) (step ((portY .low).ask .high .low .poll)) = some (true, .low) ∧
    see (fun t => (t.pollArmed, t.prevPort)) (step ((portY .low).ask .low .high .poll)) = some (true, .high) := by
  decide

/-- V-D16: an edge with no client writes the board IDLE. -/
theorem test_poll_without_client :
    see (fun t => (t.board, t.seq))
      (step ({ homingX with seq := .preListen, board := .waitForConnection }.ask .low .low .poll)) =
      some (.idle, .preListen) := by decide

/-- V-Q2 to V-Q7. -/
theorem test_sequencer :
    see (fun t => (t.board, t.seq)) (step (State.reset.ask .high .high .listen)) =
      some (.waitForConnection, .listening) ∧
    see (fun t => (t.board, t.seq)) (step ({ State.reset with seq := .listening }.ask .high .high .accept)) =
      some (.idle, .opened) ∧
    see (fun t => (t.board, t.seq, t.x.motion)) (step (runningX.ask .high .high .disconnect)) =
      some (.waitForConnection, .preListen, .running) ∧
    refusalOf (step (State.reset.ask .high .high .command)) = some .notOpen ∧
    refusalOf (step (openedState.ask .high .high .listen)) = some .notPreListen ∧
    refusalOf (step (openedState.ask .high .high .accept)) = some .notListening := by decide

/-- S4, one firing: a running X (0.01 s) fires 5 ms after it started and not a unit before. -/
theorem test_timed_tick :
    (timedStep { runningX with script := [⟨halfInterval 0x3C23D70A, .high, .high, .tick .x⟩] }
      matches .next _) ∧
    refusalOf (timedStep { runningX with script := [⟨halfInterval 0x3C23D70A - 1, .high, .high, .tick .x⟩] }) =
      some .offSchedule := by decide

/-- 0x3C23D70A is 10737418 / 2^30 s; half of it, in units of 0.1 s / 2^150, is 10737418 * 10 * 2^119. -/
theorem test_half_interval : halfInterval 0x3C23D70A = 10737418 * 10 * 2 ^ 119 := by decide

/-! ## Witnesses: for each statement with hypotheses, values that meet them, at the ends of each clause -/

theorem test_witness_decodedBytes : ∃ bytes i rest, decode bytes = .command i rest :=
  ⟨_, _, _, test_decode_setConfig⟩

theorem test_witness_errorField :
    12 ≤ [12, 0, 0, 0, 6, 0, 0, 0, 0, 0, 0, 0#8].length ∧
      decode ([12, 0, 0, 0, 6, 0, 0, 0, 0, 0, 0, 0#8].take 8 ++ wordBytes 5 ++ []) = .command .getSysInfo [] := by
  decide

/-- The axis field at 0, 1, 2, 3, 0x100 and 0xFFFFFFFF. -/
theorem test_witness_axisField :
    axisOf 0 = some .x ∧ axisOf 1 = some .y ∧ axisOf 2 = some .z ∧ axisOf 3 = none ∧ axisOf 0x100 = none ∧
      axisOf 0xFFFFFFFF = none ∧ 3 ≤ (3#32).toNat ∧ validPeriod 0x3C23D70A = true := by decide

/-- The period field at both ends and past them, and each ground of invalidity. -/
theorem test_witness_validPeriod :
    validPeriod 0x3B30F27C = true ∧ validPeriod 0x3B30F27B = false ∧ validPeriod 0x3E8A3D70 = true ∧
      validPeriod 0x3E8A3D71 = false ∧ isFinite 0x7F800000 = false ∧ isFinite 0x7F7FFFFF = true ∧
      signBit 0xBC23D70A = true ∧ expField 0x007FFFFF = 0 ∧ expField 0x00800000 = 1 := by decide

theorem test_witness_boundaryReadings :
    validPeriodWith .f32 0x3B30F27C = false ∧ validPeriodWith .exact 0x3B30F27C = true ∧
      validPeriodWith .f32 0x3E8A3D71 = true ∧ validPeriodWith .exact 0x3E8A3D71 = false ∧
      validPeriodWith .f32 0x3B30F27D = true ∧ validPeriodWith .f32 0x3E8A3D72 = false := by decide

theorem test_witness_shortStream :
    decode [12, 0, 0, 0, 6, 0, 0, 0, 0, 0, 0] = .incomplete ∧
      decode [13, 0, 0, 0, 6, 0, 0, 0, 0, 0, 0, 0] = .incomplete ∧
      decode [12, 0, 0, 0, 6, 0, 0, 0, 0, 0, 0, 0] ≠ .incomplete := by decide

/-- A length of 11; `fid` 0 with 12, 5 with 20, 6 with 16, 7 with 16: refused. `fid` 8 with 12 and 13: not. -/
theorem test_witness_malformedFrame :
    (wordBytes 11 ++ wordBytes 0 ++ wordBytes 0 ++ [] = [11, 0, 0, 0, 0, 0, 0, 0, 0, 0, 0, 0] ∧
      refusalOf (step { openedState with
        script := [⟨0, .high, .high, .command⟩], rx := [11, 0, 0, 0, 0, 0, 0, 0, 0, 0, 0, 0] }) =
        some (.malformedFrame (.lengthBelowHeader 11))) ∧
    (∀ f ∈ [Frame.mk 12 0 0 [], .mk 20 5 0 [0, 0, 0, 0, 0, 0, 0, 0], .mk 16 6 0 [0, 0, 0, 0],
        .mk 16 7 0 [0, 0, 0, 0]],
      f.payload.length + 12 = f.packetLength.toNat ∧
      (f.fid.toNat ≤ 5 ∧ f.packetLength.toNat ≠ 16 ∨ f.fid.toNat = 6 ∧ f.packetLength.toNat ≠ 12 ∨
        f.fid.toNat = 7 ∧ f.packetLength.toNat ≠ 20) ∧
      refusalOf (step { openedState with script := [⟨0, .high, .high, .command⟩], rx := f.bytes }) =
        some (.malformedFrame (.lengthMismatch f.fid f.packetLength))) ∧
    (∀ f ∈ [Frame.mk 12 8 0 [], .mk 13 8 0 [0], .mk 12 0xFFFFFFFF 0 []],
      f.payload.length + 12 = f.packetLength.toNat ∧ 8 ≤ f.fid.toNat) := by decide

/-- `fid` 8 and 0xFFFFFFFF, and a table without a handler for `fid` 3. -/
theorem test_witness_unsupportedFid :
    (∀ f ∈ [Frame.mk 12 8 0 [], .mk 13 8 0 [0], .mk 12 0xFFFFFFFF 0 []],
      f.payload.length + 12 = f.packetLength.toNat ∧ 8 ≤ f.fid.toNat ∧
      see State.tx (step { openedState with script := [⟨0, .high, .high, .command⟩], rx := f.bytes }) =
        some [⟨f.fid, .notSupported, .ack⟩]) ∧
    decodeWith (fun n => n != 3) (Frame.mk 16 3 0 [0, 0, 0, 0]).bytes = .unsupported 3 [] := by decide

theorem test_witness_stepRunsTheCommand :
    ∃ (s : State) (i : Instr), s.seq = .opened ∧ s.script = [⟨0, .high, .low, .command⟩] ∧
      decode s.rx = .command i [] :=
  ⟨{ openedState with script := [⟨0, .high, .low, .command⟩], rx := encode (.runStepper 1) }, .runStepper 1,
    by decide⟩

/-- The small states are such as a run reaches. -/
theorem test_witness_invariant :
    openedState.Inv ∧ readyX.Inv ∧ runningX.Inv ∧ homingX.Inv ∧ (portY .low).Inv ∧ (portY .high).Inv ∧
      runningX.Phased ∧ homingX.Phased ∧ runningX.BoardTracksMotion ∧ homingX.BoardTracksMotion := by
  refine ⟨?_, ?_, ?_, ?_, ?_, ?_, ?_, ?_, ?_, ?_⟩ <;> decide

/-- Each error from a state of the invariant. -/
theorem test_witness_errors :
    openedState.Inv ∧
    exec (.runStepper 3) openedState = .next { openedState with tx := openedState.tx ++ [⟨1, .invalidAxis, .ack⟩] } ∧
    exec (.setConfig 5 0x3E99999A) openedState =
      .next { openedState with tx := openedState.tx ++ [⟨7, .invalidParameter, .ack⟩] } ∧
    exec (.returnHome 0) openedState =
      .next { openedState with tx := openedState.tx ++ [⟨3, .flowNotConfigured, .ack⟩] } :=
  ⟨by decide, rfl, rfl, rfl⟩

/-- INVALID_AXIS and SET_CONFIG: an axis of 3, a valid and an invalid period, and a good axis. -/
theorem test_witness_setConfig :
    3 ≤ (3#32).toNat ∧ (2#32).toNat = Axis.z.index ∧ validPeriod 0x3C23D70A = true ∧
      validPeriod 0x3E99999A = false ∧
      see (fun t => (t.z.period, t.z.configured)) (exec (.setConfig 2 0x3C23D70A) openedState) =
        some (0x3C23D70A, true) := by decide

/-- The three cases of the run-class commands: unconfigured, running, idle; and at home or not. -/
theorem test_witness_runClass :
    (openedState.chan .x).configured = false ∧
    ((runningX.chan .x).configured = true ∧ (runningX.chan .x).motion = .running) ∧
    ((readyX.chan .x).configured = true ∧ (readyX.chan .x).motion = .idle) ∧
    (readyX.homeIn = .high ∨ readyX.portIn = .high) ∧
    (0#32).toNat = Axis.x.index ∧ (2#32).toNat = Axis.z.index ∧ 3 ≤ (3#32).toNat := by decide

/-- STOP_STEPPER and the poll's edge: the last running axis, and one of two. -/
theorem test_witness_lastAxis :
    (∀ b : Axis, b ≠ .x → (runningX.chan b).motion = .idle) ∧
    (∃ b : Axis, b ≠ .x ∧ ({ runningX with y := runningChannel }.chan b).motion = .running) :=
  ⟨by intro b; cases b <;> decide, .y, by decide⟩

/-- GET_STATUS: board IDLE, a running configured axis, an unconfigured axis while another runs (V-C4). -/
theorem test_witness_getStatus :
    (openedState.board ≠ .pumpRunning ∧ openedState.seq = .opened) ∧
    (runningX.Inv ∧ runningX.board = .pumpRunning ∧ (runningX.chan .x).configured = true) ∧
    (runningX.chan .z).configured = false := by decide

theorem test_witness_reading :
    ∃ t, exec .getSysInfo runningX = .next t := ⟨_, rfl⟩

theorem test_witness_rounding : isFinite 0x40A00000 = true ∧ 0x40A00000#32 ≠ 0x80000000#32 := by decide

/-- The frames: a command of another axis completes, and one of each kind. -/
theorem test_witness_frames :
    (2#32).toNat ≠ Axis.x.index ∧ (∃ t, exec (.stopStepper 2) runningX = .next t) ∧
      (∃ t, exec (.getStatus 2) openedState = .next t) ∧ (∃ t, exec (.setConfig 2 0) runningX = .next t) :=
  ⟨by decide, ⟨_, rfl⟩, ⟨_, rfl⟩, ⟨_, rfl⟩⟩

/-- Ticks: of an idle axis, with the line low and with it high. -/
theorem test_witness_tick :
    (readyX.chan .x).motion = .idle ∧ (runningX.chan .x).motion = .running ∧ (runningX.chan .x).pin = .low ∧
      (runningX.chan .x).steps = 0 ∧
      see (fun t => (t.chan .x).pin) (step (runningX.ask .high .high (.tick .x))) = some .high := by decide

/-- S9: two ticks of X with one of Y between, from a fresh run of both. -/
theorem test_witness_tickCount :
    let es := [⟨0, .high, .high, .tick .x⟩, ⟨0, .high, .high, .tick .y⟩, ⟨0, .high, .high, .tick .x⟩]
    let s := { runningX with y := runningChannel, script := es }
    tickCount .x es = 2 ∧ (∀ e ∈ es, e.event = .tick .x ∨ e.event = .tick .y) ∧
      see (fun t => (t.x.pin, t.x.steps, t.y.steps)) (Host.Core.run Sys2Proof.core 3 s) = some (.low, 1, 1) := by
  decide

/-- While X runs, another transition happens and X runs on; and so does the homing session of X. -/
theorem test_witness_running :
    see (fun t => (t.chan .x).motion) (step (runningX.ask .high .high .disconnect)) = some .running ∧
    see (fun t => (t.pollArmed, t.x.motion)) (step (homingX.ask .high .high (.tick .x))) =
      some (true, .running) := by decide

/-- Polls: disarmed; of a stopped target; no edge and an edge in each mode. -/
theorem test_witness_poll :
    runningX.pollArmed = false ∧
    (({ homingX with x := readyChannel }).pollArmed = true ∧
      (({ homingX with x := readyChannel }).chan .x).motion = .idle) ∧
    (homingX.pollArmed = true ∧ (homingX.chan homingX.sessAxis).motion = .running ∧ homingX.sessMode = .home) ∧
    ((portY .low).pollArmed = true ∧ ((portY .low).chan (portY .low).sessAxis).motion = .running ∧
      (portY .low).sessMode = .port ∧ (portY .low).prevPort = .low) ∧
    (portY .high).prevPort = .high := by decide

/-- Sessions end by a poll or a reset, and are replaced by a command; V-D12. -/
theorem test_witness_sessionEnds :
    see State.pollArmed (step (homingX.ask .low .low .poll)) = some false ∧
    see State.pollArmed (step ((portY .high).ask .low .low .reset)) = some false ∧
    see (fun t => (t.pollArmed, t.sessAxis, t.sessMode)) (step { homingX with
      y := readyChannel, rx := encode (.runToNext 1), script := [⟨0, .high, .high, .command⟩] }) =
      some (true, .y, .port) := by decide

/-- A session is armed, in each mode. -/
theorem test_witness_sessionArmed :
    see State.pollArmed (step { readyX with
      rx := encode (.returnHome 0), script := [⟨0, .high, .high, .command⟩] }) = some true ∧
    see State.pollArmed (step { readyX with
      rx := encode (.runToPrevious 0), script := [⟨0, .high, .high, .command⟩] }) = some true := by decide

/-- `prevPort` outside mode PORT: a HOME session, and none. -/
theorem test_witness_prevPort :
    homingX.sessMode = .home ∧ runningX.pollArmed = false ∧
    (∃ t, step (homingX.ask .high .high .poll) = .next t) ∧
    refusalOf (step (runningX.ask .high .high .poll)) = some .pollTimerDisarmed :=
  ⟨rfl, rfl, ⟨_, rfl⟩, by decide⟩

/-- Sampling: a stopped target, and mode PORT. -/
theorem test_witness_sampling :
    (({ homingX with x := readyChannel }).chan .x).motion = .idle ∧ (portY .low).sessMode = .port ∧
      3 ≤ (3#32).toNat ∧ (openedState.chan .y).configured = false ∧ (1#32).toNat = Axis.y.index ∧
      Event.tick .x ≠ .command := by decide

/-- V-D14, in mode HOME and in mode PORT. -/
theorem test_witness_staleSession :
    (homingX.seq = .opened ∧ (homingX.chan .x).configured = true ∧ homingX.pollArmed = true ∧
      homingX.sessAxis = .x ∧ homingX.sessMode = .home) ∧
    ((portY .high).seq = .opened ∧ ((portY .high).chan .y).configured = true ∧ (portY .high).pollArmed = true ∧
      (portY .high).sessAxis = .y ∧ (portY .high).sessMode = .port ∧ (portY .high).prevPort = .high) ∧
    see (fun t => (t.y.motion, t.pollArmed)) (Host.Core.run Sys2Proof.core 3 { portY .high with
      rx := encode (.stopStepper 1) ++ encode (.runStepper 1),
      script := [⟨0, .high, .high, .command⟩, ⟨0, .high, .high, .command⟩, ⟨0, .high, .low, .poll⟩] }) =
      some (.idle, false) := by decide

/-- V-D9, in mode HOME and in mode PORT, where the two orders leave different values in `prevPort`. -/
theorem test_witness_commute :
    (homingX.seq = .opened ∧ homingX.pollArmed = true ∧ homingX.sessAxis = .x ∧ homingX.sessMode = .home ∧
      (homingX.chan .x).motion = .running ∧ (0#32).toNat = Axis.x.index) ∧
    ((portY .high).seq = .opened ∧ (portY .high).pollArmed = true ∧ (portY .high).sessAxis = .y ∧
      (portY .high).sessMode = .port ∧ (portY .high).prevPort = .high ∧
      ((portY .high).chan .y).motion = .running ∧ (1#32).toNat = Axis.y.index) ∧
    see State.prevPort (Host.Core.run Sys2Proof.core 2 { portY .high with
      rx := encode (.stopStepper 1), script := [⟨0, .high, .low, .poll⟩, ⟨0, .high, .low, .command⟩] }) =
      some .low ∧
    see State.prevPort (Host.Core.run Sys2Proof.core 2 { portY .high with
      rx := encode (.stopStepper 1), script := [⟨0, .high, .low, .command⟩, ⟨0, .high, .low, .poll⟩] }) =
      some .high := by decide

/-- The empty script, in PRE_LISTEN and elsewhere. -/
theorem test_witness_emptyScript :
    (State.reset.script = [] ∧ State.reset.seq = .preListen) ∧
      (homingX.script = [] ∧ homingX.seq ≠ .preListen) := by decide

/-- Bytes sent on an open connection, and without one. -/
theorem test_witness_send :
    see State.rx (step ({ openedState with rx := [1] }.ask .high .high (.send [2, 3]))) = some [1, 2, 3] ∧
      refusalOf (step (State.reset.ask .high .high (.send [2]))) = some .notOpen := by decide

/-- LISTEN, ACCEPT and DISCONNECT, each enabled and not; and each change of `seq`. -/
theorem test_witness_sequencer :
    State.reset.seq = .preListen ∧ openedState.seq ≠ .preListen ∧
    ({ State.reset with seq := SeqState.listening }).seq = .listening ∧ openedState.seq ≠ .listening ∧
    openedState.seq = .opened ∧ State.reset.seq ≠ .opened ∧
    see State.seq (step (openedState.ask .high .high .reset)) = some .preListen ∧
    see State.seq (step (openedState.ask .high .high .disconnect)) = some .preListen := by decide

/-- The board changes by a poll and by a command, and the property of R94 survives a DISCONNECT with no axis
running. -/
theorem test_witness_board :
    see State.board (step (homingX.ask .low .low .poll)) = some .idle ∧
    see State.board (step { readyX with
      rx := encode (.runStepper 0), script := [⟨0, .high, .high, .command⟩] }) = some .pumpRunning ∧
    readyX.BoardTracksMotion ∧ readyX.allIdle = true ∧
    see State.board (step (readyX.ask .high .high .disconnect)) = some .waitForConnection := by decide

/-- A step may leave the board CONNECTED, which a run never enters. -/
theorem test_witness_connected :
    see State.board (step ({ runningX with board := .connected }.ask .high .high (.tick .x))) =
      some .connected := by decide

/-- A configuration is written, and survives a DISCONNECT. -/
theorem test_witness_configuration :
    see (fun t => (t.x.configured, t.x.period)) (step { openedState with
      rx := encode (.setConfig 0 0x3C23D70A), script := [⟨0, .high, .high, .command⟩] }) =
      some (true, 0x3C23D70A) ∧
    see (fun t => t.x.configured) (step (readyX.ask .high .high .disconnect)) = some true := by decide

theorem test_witness_reset :
    (homingX.ask .low .low .reset).script = ⟨0, .low, .low, .reset⟩ :: [] ∧
    see (fun t => (t.x.configured, t.pollArmed, t.seq)) (step (homingX.ask .low .low .reset)) =
      some (false, false, .preListen) := by decide

/-- A transition that is enabled, and one that is not. -/
theorem test_witness_enabled :
    (homingX.ask .low .low .poll).enabled .poll = true ∧ (homingX.ask .low .low .listen).enabled .listen = false ∧
      { openedState with rx := encode .getSysInfo }.enabled .command = true ∧
      { openedState with rx := [8, 0, 0, 0, 6, 0, 0, 0, 0, 0, 0, 0] }.enabled .command = false := by decide

theorem test_witness_stepInvariant :
    (homingX.ask .low .low .poll).Inv ∧ ∃ t, step (homingX.ask .low .low .poll) = .next t :=
  ⟨by decide, _, rfl⟩

/-- Two different states that are equal but for the timing layer. -/
theorem test_witness_eraseTiming :
    runningX.eraseTiming = { runningX with pollIn := 7 }.eraseTiming ∧ runningX ≠ { runningX with pollIn := 7 } := by
  decide

theorem test_witness_interval : isFinite 0x3B30F27C = true ∧ validPeriod 0x3B30F27C = true ∧
    isFinite 0x00000001 = true := by decide

/-- Timed steps: a firing of each timer when it is due, and a command that arms the poll timer anew. -/
theorem test_witness_timed :
    (∃ t, timedStep { runningX with script := [⟨halfInterval 0x3C23D70A, .high, .high, .tick .x⟩] } = .next t) ∧
    (∃ t, timedStep { homingX with
      x := { homingX.x with tickIn := Config.pollInterval, halfLatch := Config.pollInterval }
      script := [⟨Config.pollInterval, .high, .high, .poll⟩] } = .next t) ∧
    (∃ t, timedStep { homingX with
      rx := encode (.returnHome 0), script := [⟨5, .high, .high, .command⟩] } = .next t) :=
  ⟨⟨_, rfl⟩, ⟨_, rfl⟩, ⟨_, rfl⟩⟩

/-- Along commands to X, a disconnect, a start of Y and a poll, X runs on: one tick of X in the middle. -/
theorem test_witness_tickCount_mixed :
    let s := { homingX with
      y := readyChannel, rx := encode (.runStepper 1) ++ encode (.returnHome 0)
      script := [⟨0, .high, .high, .command⟩, ⟨0, .high, .high, .command⟩, ⟨0, .high, .high, .tick .x⟩,
        ⟨0, .high, .high, .poll⟩, ⟨0, .high, .high, .disconnect⟩] }
    (∀ k < 6, see (fun t => t.x.motion) (Host.Core.run Sys2Proof.core k s) = some .running) ∧
      see (fun t => (t.x.pin, t.x.steps)) (Host.Core.run Sys2Proof.core 5 s) = some (.high, 1) := by decide

/-- On schedule: a tick at the end of its interval, with another timer at the end of its own. Off it: a unit
early, before a poll that is due, and back in time. -/
theorem test_witness_schedule :
    (homingX.x.motion = .running ∧ homingX.pollArmed = true ∧ 0 ≤ homingX.x.tickIn ∧
      homingX.x.tickIn ≤ homingX.pollIn) ∧
    (∃ t, timedStep { homingX with pollIn := homingX.x.tickIn
                                   script := [⟨homingX.x.tickIn, .high, .high, .tick .x⟩] } = .next t) ∧
    refusalOf (timedStep { homingX with pollIn := 3
                                        script := [⟨4, .high, .high, .listen⟩] }) = some .offSchedule ∧
    refusalOf (timedStep { runningX with script := [⟨-1, .high, .high, .reset⟩] }) = some .offSchedule :=
  ⟨by decide, ⟨_, rfl⟩, by decide, by decide⟩

/-- R47: a text of 31 characters fills its field but for the last byte. -/
theorem test_witness_sysinfo :
    (List.replicate 31 (0x40 : Fin 127)).length ≤ 31 ∧ sysInfoField [] = List.replicate 32 0 := by decide

theorem test_witness_phase :
    let s := { runningX with script := [⟨halfInterval 0x3C23D70A, .high, .high, .tick .x⟩] }
    s.Inv ∧ s.Phased ∧ ∃ t, timedStep s = .next t := ⟨by decide, by decide, _, rfl⟩

end Sys2Proof.Machine
end

section
/-! PROOFS. The encoding obligations, over rules that say the decoder once: by the shape of the stream (a
header, or a complete frame, with what follows it), then by the branch of the dispatch. -/

namespace Sys2Proof

/-! ## A stream written as a header and what follows it -/

/-- A stream that holds a header is its three fields and what follows them (R45). -/
theorem exists_header_of_length {bytes : List Byte} (h : 12 ≤ bytes.length) :
    ∃ len fid err tail, bytes = wordBytes len ++ wordBytes fid ++ wordBytes err ++ tail := by
  obtain ⟨b0, b1, b2, b3, b4, b5, b6, b7, b8, b9, b10, b11, tl, rfl⟩ := twelve_bytes bytes h
  exact ⟨u32le b0 b1 b2 b3, u32le b4 b5 b6 b7, u32le b8 b9 b10 b11, tl, by simp [wordBytes_u32le]⟩

/-- What the reception cuts off a stream that holds a header (R53). -/
theorem cutFrame_header (len fid err : Word) (tail : List Byte) :
    cutFrame (wordBytes len ++ wordBytes fid ++ wordBytes err ++ tail) =
      if tail.length + 12 < len.toNat then none
      else some (⟨len, fid, err, tail.take (len.toNat - 12)⟩, tail.drop (len.toNat - 12)) := by
  have hlength : (wordBytes len ++ wordBytes fid ++ wordBytes err ++ tail).length = tail.length + 12 := by
    simp; omega
  have hlen : u32At (wordBytes len ++ wordBytes fid ++ wordBytes err ++ tail) 0 = len := by simp
  have hfid : u32At (wordBytes len ++ wordBytes fid ++ wordBytes err ++ tail) 4 = fid := by
    simp [u32At_skip (i := 0)]
  have herr : u32At (wordBytes len ++ wordBytes fid ++ wordBytes err ++ tail) 8 = err := by
    simp [u32At_skip (i := 4), u32At_skip (i := 0)]
  have hdrop : (wordBytes len ++ wordBytes fid ++ wordBytes err ++ tail).drop 12 = tail := by
    simp [wordBytes]
  rw [cutFrame, hlength, if_neg (by omega), hlen, hfid, herr, hdrop]

/-- What the decoder finds behind a header. -/
theorem decode_header (len fid err : Word) (tail : List Byte) :
    decode (wordBytes len ++ wordBytes fid ++ wordBytes err ++ tail) =
      if tail.length + 12 < len.toNat then .incomplete
      else decodeFrame Config.handlerBound ⟨len, fid, err, tail.take (len.toNat - 12)⟩
        (tail.drop (len.toNat - 12)) := by
  rw [decode, decodeWith, cutFrame_header]
  split_ifs <;> rfl

/-- The decoder on the bytes of a complete frame, whatever follows it. -/
theorem decode_bytes {f : Frame} (tail : List Byte) (h : f.payload.length + 12 = f.packetLength.toNat) :
    decode (f.bytes ++ tail) = decodeFrame Config.handlerBound f tail := by
  rw [decode, decodeWith, cutFrame_bytes f tail h]

/-! ## The branches of the dispatch, all eight handlers bound -/

theorem Frame.coversHeader_iff (f : Frame) : f.coversHeader = true ↔ 12 ≤ f.packetLength.toNat := by
  simp [Frame.coversHeader]

theorem Frame.fitsFormat_iff (f : Frame) (fmt : Format) :
    f.fitsFormat fmt = true ↔ f.packetLength.toNat = fmt.length := by
  simp [Frame.fitsFormat]

/-- The `error` field is not examined (R56). -/
theorem decodeFrame_error (bound : Nat → Bool) (len fid err err' : Word) (payload rest : List Byte) :
    decodeFrame bound ⟨len, fid, err, payload⟩ rest = decodeFrame bound ⟨len, fid, err', payload⟩ rest :=
  rfl

section
variable {f : Frame} {i : Instr} (rest : List Byte)

theorem decodeFrame_lengthBelowHeader (bound : Nat → Bool) (h : f.packetLength.toNat < 12) :
    decodeFrame bound f rest = .malformed (.lengthBelowHeader f.packetLength) := by
  have hc : ¬ f.coversHeader = true := by rw [Frame.coversHeader_iff]; omega
  simp [decodeFrame, hc]

theorem decodeFrame_command (hc : 12 ≤ f.packetLength.toNat)
    (hi : instrOf f.fid.toNat (u32At f.payload 0) (u32At f.payload 4) = some i)
    (hl : f.packetLength.toNat = i.format.length) :
    decodeFrame Config.handlerBound f rest = .command i rest := by
  simp [decodeFrame, Config.handlerBound, (Frame.coversHeader_iff f).2 hc, hi,
    (Frame.fitsFormat_iff f i.format).2 hl]

theorem decodeFrame_lengthMismatch (hc : 12 ≤ f.packetLength.toNat)
    (hi : instrOf f.fid.toNat (u32At f.payload 0) (u32At f.payload 4) = some i)
    (hl : f.packetLength.toNat ≠ i.format.length) :
    decodeFrame Config.handlerBound f rest = .malformed (.lengthMismatch f.fid f.packetLength) := by
  have hfit : ¬ f.fitsFormat i.format = true := by rwa [Frame.fitsFormat_iff]
  simp [decodeFrame, Config.handlerBound, (Frame.coversHeader_iff f).2 hc, hi, hfit]

theorem decodeFrame_unsupported (hc : 12 ≤ f.packetLength.toNat)
    (hi : instrOf f.fid.toNat (u32At f.payload 0) (u32At f.payload 4) = none) :
    decodeFrame Config.handlerBound f rest = .unsupported f.fid rest := by
  simp [decodeFrame, (Frame.coversHeader_iff f).2 hc, hi]

end

/-! ## The command a `fid` selects, and its format (R46, R48) -/

/-- `fid` 0 to 5 select the commands with the axis alone. -/
theorem instrOf_of_le_five {n : Nat} (axis period : Word) (h : n ≤ 5) :
    ∃ i, instrOf n axis period = some i ∧ i.format = .a := by
  interval_cases n <;> exact ⟨_, rfl, rfl⟩

/-- No `fid` above 7 selects a command. -/
theorem instrOf_of_eight_le {n : Nat} (axis period : Word) (h : 8 ≤ n) : instrOf n axis period = none := by
  obtain ⟨k, rfl⟩ := Nat.exists_eq_add_of_le' h
  rfl

/-! ## Decoding an encoded command -/

/-- The frame of a command is complete: it announces its own length (R45, R46). -/
theorem Instr.frame_complete (i : Instr) (error : Word) :
    (i.frame error).payload.length + 12 = (i.frame error).packetLength.toNat := by
  cases i <;> rfl

theorem Instr.frame_packetLength (i : Instr) (error : Word) :
    (i.frame error).packetLength.toNat = i.format.length := by
  cases i <;> rfl

/-- The `fid` and the payload fields of a command select that command. -/
theorem instrOf_payload (i : Instr) : instrOf i.fid.toNat (u32At i.payload 0) (u32At i.payload 4) = some i := by
  have field0 : ∀ w : Word, u32At (wordBytes w) 0 = w := fun w => by simpa using u32At_wordBytes w []
  have field4 : ∀ w p : Word, u32At (wordBytes w ++ wordBytes p) 4 = p := fun w p => by
    rw [u32At_skip (i := 0), field0]
  cases i <;> simp [instrOf, Instr.fid, Instr.payload, field0, field4]

/-- Decoding the bytes of a command gives the command back, whatever its `error` field and what follows. -/
theorem decode_encodeWith (i : Instr) (error : Word) (rest : List Byte) :
    decode (encodeWith error i ++ rest) = .command i rest := by
  have hlen := i.frame_packetLength error
  have hcomplete := i.frame_complete error
  rw [encodeWith, decode_bytes rest hcomplete]
  exact decodeFrame_command rest (by omega) (instrOf_payload i) hlen

theorem encode_drop_header (i : Instr) : (encode i).drop 12 = i.payload := by
  simp [encode, encodeWith, Frame.bytes, wordBytes, Instr.frame]

/-! ## The axis operand of a command -/

/-- The axis field of a command; `GET_SYS_INFO` has none (R46, R51). -/
def Instr.axisField : Instr → Option Word
  | .getStatus w => some w
  | .runStepper w => some w
  | .stopStepper w => some w
  | .returnHome w => some w
  | .runToNext w => some w
  | .runToPrevious w => some w
  | .getSysInfo => none
  | .setConfig w _ => some w

/-- The axis field is the first of the payload. -/
theorem Instr.payload_take_four {i : Instr} {w : Word} (h : i.axisField = some w) :
    i.payload.take 4 = wordBytes w := by
  cases i <;> cases h <;> rfl

end Sys2Proof

namespace Sys2Proof.Machine

/-- A command whose axis field names no axis only reports that (R51, R98); `SET_CONFIG` after its period. -/
theorem exec_invalidAxis {i : Instr} {w : Word} (s : State) (hi : i.axisField = some w)
    (hw : axisOf w = none) (hp : ∀ p, i = .setConfig w p → validPeriod p = true) :
    exec i s = .next (s.raise i.fid .invalidAxis) := by
  cases i <;> cases hi
  case setConfig p => simp [exec, execSetConfig, hw, hp p rfl, Instr.fid]
  all_goals simp [exec, execGetStatus, execRunStepper, execStopStepper, execReturnHome, execRunToNext,
    execRunToPrevious, hw, Instr.fid]

/-- On an open connection, a `command` stimulus with a malformed frame at the head of the stream is
refused by the reason the decoder gives. -/
theorem step_malformed {s : State} {dt : Time} {h p : Level} {rest : List Stimulus} {why : Malformed}
    (hseq : s.seq = .opened) (hscript : s.script = ⟨dt, h, p, .command⟩ :: rest)
    (hrx : decode s.rx = .malformed why) : step s = .refused (.malformedFrame why) := by
  rw [step_cons s _ rest hscript]
  simp [perform, receiveCommand, dispatchFrame, hseq, hrx]

/-! ## The obligations -/

/-- Settles O4: the stream is a header and its tail, and no branch of the decoder reads the `error` field. -/
theorem requestErrorFieldIsIgnored : Obligations.RequestErrorFieldIsIgnored := by
  intro bytes error hlength
  obtain ⟨len, fid, err, tail, rfl⟩ := exists_header_of_length hlength
  have htake : (wordBytes len ++ wordBytes fid ++ wordBytes err ++ tail).take 8 =
      wordBytes len ++ wordBytes fid := rfl
  have hdrop : (wordBytes len ++ wordBytes fid ++ wordBytes err ++ tail).drop 12 = tail := rfl
  rw [htake, hdrop, decode_header, decode_header, decodeFrame_error _ len fid error err]

/-- Settles O5: the seven commands share the place of the axis field and the report of an invalid one, and
the decoder gives every encoded command back. -/
theorem axisFieldNamesAnAxis : Obligations.AxisFieldNamesAnAxis := by
  refine ⟨axisOf_eq_some, axisOf_eq_none, fun w p i hi => ?_⟩
  have haxis : i.axisField = some w := by
    simp only [List.mem_cons, List.not_mem_nil, or_false] at hi
    obtain rfl | rfl | rfl | rfl | rfl | rfl | rfl := hi <;> rfl
  refine ⟨?_, ?_, fun hw hp s => exec_invalidAxis s haxis ((axisOf_eq_none w).2 hw) ?_⟩
  · rw [encode_drop_header, Instr.payload_take_four haxis]
  · simpa [encode] using decode_encodeWith i 0 []
  · rintro p' rfl
    obtain rfl : p' = p := by simpa using hi
    exact hp

/-- Settles O9: each kind of length reaches its own branch of the dispatch, and the step hands the
decoder's reason on. -/
theorem malformedFrameIsRefused : Obligations.MalformedFrameIsRefused := by
  refine ⟨?_, ?_, ?_⟩
  · intro s dt h p rest len fid err tail hseq hscript hrx hlen
    refine step_malformed hseq hscript ?_
    rw [hrx, decode_header, if_neg (by omega), decodeFrame_lengthBelowHeader _ _ hlen]
  · intro s dt h p rest f tail hseq hscript hrx hcomplete hlen
    refine step_malformed hseq hscript ?_
    rw [hrx, decode_bytes tail hcomplete]
    have hc : 12 ≤ f.packetLength.toNat := by omega
    obtain ⟨hfid, hne⟩ | ⟨hfid, hne⟩ | ⟨hfid, hne⟩ := hlen
    · obtain ⟨i, hi, hfmt⟩ := instrOf_of_le_five (u32At f.payload 0) (u32At f.payload 4) hfid
      exact decodeFrame_lengthMismatch tail hc hi (by rwa [hfmt])
    · exact decodeFrame_lengthMismatch tail hc (i := .getSysInfo) (by rw [hfid]; rfl) hne
    · exact decodeFrame_lengthMismatch tail hc (i := .setConfig (u32At f.payload 0) (u32At f.payload 4))
        (by rw [hfid]; rfl) hne
  · intro f tail hcomplete hfid
    rw [decode_bytes tail hcomplete]
    exact decodeFrame_unsupported tail (by omega) (instrOf_of_eight_le _ _ hfid)

end Sys2Proof.Machine
end

section
/-! PROOFS. The generator obligation: a tick reloads the interval, so the time that passed before it leaves
no trace in its channel. -/

namespace Sys2Proof.Machine

/-! ## One firing of a step timer -/

section
variable (c : Channel)

theorem Channel.tick_low (h : c.pin = .low) :
    c.tick = { c with pin := .high, steps := c.steps + 1, tickIn := c.halfLatch } := by
  simp only [Channel.tick, h]

theorem Channel.tick_high (h : c.pin = .high) :
    c.tick = { c with pin := .low, tickIn := c.halfLatch } := by
  simp only [Channel.tick, h]

/-- The passing of time changes only `tickIn`, and the firing overwrites it (R134). -/
@[simp] theorem Channel.tick_advance (dt : Time) : (c.advance dt).tick = c.tick := by
  cases hm : c.motion with
  | idle => simp only [Channel.advance, hm]
  | running => cases hp : c.pin <;> simp only [Channel.advance, Channel.tick, hm, hp]

end

/-- The count adds one modulo 2^32 (R66). -/
theorem add_one_eq_ofNat_mod (n : Word) : n + 1 = BitVec.ofNat 32 ((n.toNat + 1) % 2 ^ 32) := by
  apply BitVec.eq_of_toNat_eq
  simp

/-! ## The step that performs a tick -/

section
variable {s : State} {e : Stimulus} {rest : List Stimulus} {a : Axis}

theorem step_tick_idle (hs : s.script = e :: rest) (he : e.event = .tick a)
    (hm : (s.chan a).motion = .idle) : step s = .refused (.stepTimerDisarmed a) := by
  rw [step_cons s e rest hs, he]
  exact doTick_idle a _ (by simpa [chan_enter] using hm)

theorem step_tick_running (hs : s.script = e :: rest) (he : e.event = .tick a)
    (hm : (s.chan a).motion = .running) :
    step s = .next ((s.enter e rest).setChan a (s.chan a).tick) := by
  have hfire := doTick_running a (s.enter e rest) (by simpa [chan_enter] using hm)
  rw [chan_enter, Channel.tick_advance] at hfire
  rw [step_cons s e rest hs, he]
  exact hfire

end

/-! ## The obligation -/

/-- Settles O30: the step is refused or fires by the axis's motion, and the firing goes by its line. -/
theorem tickResult : Obligations.TickResult := by
  intro s e rest a hs he
  refine ⟨step_tick_idle hs he, ?_, ?_⟩
  · intro hm hlow
    rw [step_tick_running hs he hm, Channel.tick_low _ hlow, add_one_eq_ofNat_mod]
  · intro hm hhigh
    rw [step_tick_running hs he hm, Channel.tick_high _ hhigh]

end Sys2Proof.Machine
end

section
/-! PROOFS. The command obligations of `SET_CONFIG`, `STOP_STEPPER`, `GET_STATUS` and `GET_SYS_INFO`, over one
equation per command and valid axis. -/

namespace Sys2Proof.Machine

/-! ## Replies and the board over a written channel -/

/-- A reply after a write to one channel appends to the record that stood before the write. -/
theorem reply_setChan (s : State) (a : Axis) (c : Channel) (fid : Word) (st : Status) (p : Payload) :
    (s.setChan a c).reply fid st p = { s.setChan a c with tx := s.tx ++ [⟨fid, st, p⟩] } := by
  simp [State.reply]

theorem setChan_with_board (s : State) (a : Axis) (c : Channel) (v : BoardState) :
    State.setChan { s with board := v } a c = { s.setChan a c with board := v } := by
  cases a <;> rfl

/-- `AllIdle()` reads no count. -/
theorem allIdle_setSteps (s : State) (a : Axis) (n : Word) : (s.setSteps a n).allIdle = s.allIdle := by
  cases a <;> rfl

/-- So the count may be written before the board is. -/
theorem setSteps_boardIdleIfAllIdle (s : State) (a : Axis) (n : Word) :
    (boardIdleIfAllIdle s).setSteps a n = boardIdleIfAllIdle (s.setSteps a n) := by
  rw [boardIdleIfAllIdle, boardIdleIfAllIdle, allIdle_setSteps]
  split_ifs
  · exact setChan_with_board s a _ .idle
  · rfl

/-! ## The invariant of one axis, and a configured period -/

theorem State.Inv.chan {s : State} (h : s.Inv) (a : Axis) : (s.chan a).Inv := by
  obtain ⟨hx, hy, hz, -⟩ := h
  cases a
  · exact hx
  · exact hy
  · exact hz

/-- A valid period is finite and above a positive bound, so it has a flow (R87: "No division by zero can
occur"). -/
theorem hasFlow_of_validPeriod {p : Word} (h : validPeriod p = true) : hasFlow p = true := by
  simp only [validPeriod, validPeriodWith, Config.boundaryCompare, Bool.and_eq_true, decide_eq_true_eq] at h
  obtain ⟨hfinite, hmin, -⟩ := h
  have hne : scaledValue p ≠ 0 := by
    intro h0
    rw [h0] at hmin
    exact absurd hmin (by decide)
  simp [hasFlow, hfinite, hne]

/-- Under the invariant the formula of the flow applies to every configured axis (R79 case (b)). -/
theorem State.Inv.hasFlow {s : State} (h : s.Inv) {a : Axis} (hc : (s.chan a).configured = true) :
    hasFlow (s.chan a).period = true := by
  obtain ⟨-, -, -, hperiod, -⟩ := h.chan a
  exact hasFlow_of_validPeriod (hperiod hc)

/-! ## The flow field, case by case (R79) -/

section
variable {a : Axis} {s : State}

theorem flowField_notRunning (hb : s.board ≠ .pumpRunning) : flowField a s = (0, s) := by
  simp [flowField, hb]

theorem flowField_configured (hb : s.board = .pumpRunning) (hc : (s.chan a).configured = true)
    (hf : hasFlow (s.chan a).period = true) : flowField a s = (flow (s.chan a).period, s) := by
  simp [flowField, hb, hc, hf]

theorem flowField_unconfigured (hb : s.board = .pumpRunning) (hc : (s.chan a).configured = false) :
    flowField a s = (Config.freeFlow s.draws, { s with draws := s.draws + 1 }) := by
  simp [flowField, hb, hc]

end

/-! ## The sysinfo fields -/

/-- A sysinfo field is 32 bytes, whatever the text (R47). -/
theorem sysInfoField_length (text : List (Fin 127)) : (sysInfoField text).length = 32 := by
  simp only [sysInfoField, Config.sysInfoStrLen, List.length_append, List.length_replicate, List.length_map,
    List.length_take]
  omega

/-! ## The commands on an axis that their operand names -/

/-- The registers of an axis after `STOP_STEPPER` (R82). -/
def Channel.stopped (c : Channel) : Channel :=
  { c with motion := .idle, pin := .low, dir := .forward, steps := 0 }

section
variable {w : Word} {a : Axis} (s : State)

theorem exec_setConfig_invalidPeriod (w : Word) {p : Word} (hp : validPeriod p = false) :
    exec (.setConfig w p) s = .next (s.raise 7 .invalidParameter) := by
  simp [exec, execSetConfig, hp]

theorem exec_setConfig_axis {p : Word} (hp : validPeriod p = true) (hw : w.toNat = a.index) :
    exec (.setConfig w p) s = .next ((genConfigure a p s).ack 7) := by
  simp [exec, execSetConfig, hp, (axisOf_eq_some w a).2 hw]

/-- `STOP_STEPPER` writes the addressed channel, then the board by what the channels then say. -/
theorem exec_stopStepper_axis (hw : w.toNat = a.index) :
    exec (.stopStepper w) s =
      .next ((boardIdleIfAllIdle (s.setChan a (s.chan a).stopped)).ack 2) := by
  have hchan : ((genStop a s).setDir a .forward).setSteps a 0 = s.setChan a (s.chan a).stopped := by
    simp [genStop, State.setDir, State.setSteps, Channel.stopped]
  rw [← hchan, ← setSteps_boardIdleIfAllIdle]
  simp [exec, execStopStepper, (axisOf_eq_some w a).2 hw, disarmOnStop, Config.stopDisarmsPoll]

/-- `GET_STATUS` with the flow field `rate`, which leaves the state `t`. -/
theorem exec_getStatus_axis (hw : w.toNat = a.index) {rate : Word} {t : State}
    (hflow : flowField a s = (rate, t)) :
    exec (.getStatus w) s = .next (t.reply 0 .ok
      (.status (s.chan a).motion s.board s.homeIn s.portIn (volume (s.chan a).steps) rate)) := by
  simp [exec, execGetStatus, (axisOf_eq_some w a).2 hw, hflow, State.sampleHome, State.samplePort]

end

/-! ## The obligations -/

/-- Settles O16: the period decides first, then the axis field, and the success is one channel write. -/
theorem setConfigResult : Obligations.SetConfigResult := by
  refine ⟨rfl, fun w p => ⟨rfl, (Laws.AdmittedFrame.setConfig w p 0).2⟩, fun w p s => ⟨?_, ?_, ?_⟩⟩
  · exact fun hp => exec_setConfig_invalidPeriod s w hp
  · intro hp hw
    refine exec_invalidAxis s (i := .setConfig w p) rfl ((axisOf_eq_none w).2 hw) ?_
    rintro p' ⟨⟩
    exact hp
  · intro a hp hw
    rw [exec_setConfig_axis s hp hw, genConfigure, State.ack, reply_setChan]

/-- Settles O18: the command is one channel write and the board rule, which looks at the other axes. -/
theorem stopStepperResult : Obligations.StopStepperResult := by
  refine ⟨fun w => ⟨rfl, (Laws.AdmittedFrame.stopStepper w 0).2⟩, fun w s => ⟨fun hw => ?_, fun a hw => ?_⟩⟩
  · exact exec_invalidAxis s (i := .stopStepper w) rfl ((axisOf_eq_none w).2 hw) nofun
  have hall := allIdle_setChan_idle s a (s.chan a).stopped rfl
  rw [exec_stopStepper_axis s hw, boardIdleIfAllIdle]
  refine ⟨fun hidle => ?_, ?_⟩
  · rw [if_pos (hall.2 hidle)]
    simp [State.ack, State.reply, Channel.stopped]
  · rintro ⟨b, hb, hrunning⟩
    have hnot : ¬ (s.setChan a (s.chan a).stopped).allIdle = true := fun h => by
      simp [hall.1 h b hb] at hrunning
    rw [if_neg hnot, State.ack, reply_setChan, Channel.stopped]

/-- Settles O23: the reply is fixed but for the flow field, which goes by the board and the configured flag;
the invariant gives a configured axis a period with a flow, and a connected board its two codes. -/
theorem getStatusResult : Obligations.GetStatusResult := by
  refine ⟨fun w => ⟨rfl, (Laws.AdmittedFrame.getStatus w 0).2⟩, fun w s => ⟨fun hw => ?_, fun a hw => ?_⟩⟩
  · exact exec_invalidAxis s (i := .getStatus w) rfl ((axisOf_eq_none w).2 hw) nofun
  refine ⟨fun hb => ?_, fun hinv hb hc => ?_, fun hb hc => ?_, ?_⟩
  · exact exec_getStatus_axis s hw (flowField_notRunning hb)
  · exact exec_getStatus_axis s hw (flowField_configured hb hc (hinv.hasFlow hc))
  · exact ⟨_, exec_getStatus_axis s hw (flowField_unconfigured hb hc)⟩
  · rintro ⟨-, -, -, -, hopened, -⟩ hseq
    obtain hb | hb := hopened hseq
    · exact .inl (by rw [hb]; rfl)
    · exact .inr (by rw [hb]; rfl)

/-- Settles O24: the command has no branch, and a field's padding makes up what its text leaves. -/
theorem getSysInfoResult : Obligations.GetSysInfoResult :=
  ⟨rfl, (Laws.AdmittedFrame.getSysInfo 0).2, fun text _ => sysInfoField_length text, fun _ => rfl⟩

end Sys2Proof.Machine
end

section
/-! PROOFS. The error replies: what the decoder and the step do with a `fid` that has no handler, and the
commands that fail, on an axis field that names no axis or on an unconfigured axis. -/

namespace Sys2Proof

/-- An entry without a handler is reported whatever its `fid` selects, before the format is looked at (R54). -/
theorem decodeFrame_unbound {bound : Nat → Bool} {f : Frame} (rest : List Byte)
    (hc : 12 ≤ f.packetLength.toNat) (hb : bound f.fid.toNat = false) :
    decodeFrame bound f rest = .unsupported f.fid rest := by
  cases hi : instrOf f.fid.toNat (u32At f.payload 0) (u32At f.payload 4) with
  | none => simp [decodeFrame, (Frame.coversHeader_iff f).2 hc, hi]
  | some i => simp [decodeFrame, (Frame.coversHeader_iff f).2 hc, hi, hb]

end Sys2Proof

namespace Sys2Proof.Machine

/-- On an open connection, a `command` stimulus with an unsupported frame at the head of the stream takes the
frame off and answers NOT_SUPPORTED. -/
theorem step_unsupported {s : State} {dt : Time} {h p : Level} {rest : List Stimulus} {fid : Word}
    {tail : List Byte} (hseq : s.seq = .opened) (hscript : s.script = ⟨dt, h, p, .command⟩ :: rest)
    (hrx : decode s.rx = .unsupported fid tail) :
    step s = .next ({ s.enter ⟨dt, h, p, .command⟩ rest with rx := tail }.raise fid .notSupported) := by
  rw [step_cons s _ rest hscript]
  exact (receiveCommand_next _ _).2 ⟨hseq, .inr ⟨fid, tail, hrx, rfl⟩⟩

/-! ## An unconfigured axis -/

theorem atHome_eq_false {h p : Level} : atHome h p = false ↔ h = .high ∨ p = .high := by
  cases h <;> cases p <;> decide

/-- Under the invariant an unconfigured axis does not run, so its direction is forward (R28 (f), R83). -/
theorem Channel.Inv.dir_eq_forward {c : Channel} (h : c.Inv) (hc : c.configured = false) :
    c.dir = .forward := by
  obtain ⟨-, hforward, hrunning, -⟩ := h
  cases hm : c.motion with
  | idle => exact hforward hm
  | running => simp [hrunning hm] at hc

/-- A direction that was forward is restored by the revert. -/
theorem setDir_forward_setDir {s : State} {a : Axis} (d : Direction) (h : (s.chan a).dir = .forward) :
    (s.setDir a d).setDir a .forward = s := by
  have hchan : { s.chan a with dir := .forward } = s.chan a := by rw [← h]
  simp [State.setDir, hchan]

section
variable {a : Axis} {s : State}

theorem genRun_unconfigured (hc : (s.chan a).configured = false) : genRun a s = (false, s) := by
  simp [genRun, hc]

theorem runAndArm_unconfigured (fid : Word) (m : HomingMode) (revert : State → State)
    (hc : (s.chan a).configured = false) :
    runAndArm fid a m revert s = .next ((revert s).raise fid .flowNotConfigured) := by
  simp [runAndArm, genRun_unconfigured hc]

/-- The commands that set the direction to reverse and revert it on failure change nothing then. -/
theorem runAndArm_reverse_unconfigured (fid : Word) (m : HomingMode) (hinv : s.Inv)
    (hc : (s.chan a).configured = false) :
    runAndArm fid a m (fun t => t.setDir a .forward) (s.setDir a .reverse) =
      .next (s.raise fid .flowNotConfigured) := by
  rw [runAndArm_unconfigured fid m _ (by simpa using hc)]
  rw [setDir_forward_setDir .reverse ((hinv.chan a).dir_eq_forward hc)]

variable {w : Word} (hw : w.toNat = a.index) (hc : (s.chan a).configured = false)
include hw hc

theorem exec_runStepper_unconfigured :
    exec (.runStepper w) s = .next (s.raise 1 .flowNotConfigured) := by
  simp [exec, execRunStepper, (axisOf_eq_some w a).2 hw, genRun_unconfigured hc]

/-- Away from home only: at home `RETURN_HOME` is a no-op before the axis is run (R131). -/
theorem exec_returnHome_unconfigured (hinv : s.Inv) (haway : atHome s.homeIn s.portIn = false) :
    exec (.returnHome w) s = .next (s.raise 3 .flowNotConfigured) := by
  simpa [exec, execReturnHome, (axisOf_eq_some w a).2 hw, State.sampleHome, State.samplePort, haway]
    using runAndArm_reverse_unconfigured 3 .home hinv hc

theorem exec_runToNext_unconfigured :
    exec (.runToNext w) s = .next (s.raise 4 .flowNotConfigured) := by
  simpa [exec, execRunToNext, (axisOf_eq_some w a).2 hw] using runAndArm_unconfigured 4 .port id hc

theorem exec_runToPrevious_unconfigured (hinv : s.Inv) :
    exec (.runToPrevious w) s = .next (s.raise 5 .flowNotConfigured) := by
  simpa [exec, execRunToPrevious, (axisOf_eq_some w a).2 hw]
    using runAndArm_reverse_unconfigured 5 .port hinv hc

end

/-! ## The obligations -/

/-- Settles O10: no `fid` above 7 selects a command, and an unbound entry is reported before its format. -/
theorem unsupportedFidIsAnswered : Obligations.UnsupportedFidIsAnswered := by
  refine ⟨?_, ?_, rfl⟩
  · intro s dt h p rest f tail hseq hscript hrx hcomplete hfid
    have hdecode : decode s.rx = .unsupported f.fid tail := by
      rw [hrx, decode_bytes tail hcomplete]
      exact decodeFrame_unsupported tail (by omega) (instrOf_of_eight_le _ _ hfid)
    exact step_unsupported hseq hscript hdecode
  · intro bound f tail hcomplete hb
    rw [decodeWith, cutFrame_bytes f tail hcomplete]
    exact decodeFrame_unbound tail (by omega) hb

/-- Settles O15: the seven commands share the report of an invalid axis; `SET_CONFIG` reaches it only with
a valid period. -/
theorem invalidAxisIsAnswered : Obligations.InvalidAxisIsAnswered := by
  refine ⟨rfl, fun w s hw => ?_⟩
  have hnone : axisOf w = none := (axisOf_eq_none w).2 hw
  refine ⟨fun i hi => ?_, fun p hp => ?_, fun p hp => exec_setConfig_invalidPeriod s w hp⟩
  · simp only [List.mem_cons, List.not_mem_nil, or_false] at hi
    obtain rfl | rfl | rfl | rfl | rfl | rfl := hi
    all_goals exact exec_invalidAxis s rfl hnone nofun
  · refine exec_invalidAxis s (i := .setConfig w p) rfl hnone ?_
    rintro p' ⟨⟩
    exact hp

/-- Settles O22: the run of an unconfigured axis fails, and the invariant makes the revert of its direction
an identity. -/
theorem unconfiguredAxisIsNotRun : Obligations.UnconfiguredAxisIsNotRun := by
  refine ⟨rfl, fun w a s hinv hw hc => ⟨fun i hi => ?_, fun haway => ?_⟩⟩
  · simp only [List.mem_cons, List.not_mem_nil, or_false] at hi
    obtain rfl | rfl | rfl := hi
    · exact exec_runStepper_unconfigured hw hc
    · exact exec_runToNext_unconfigured hw hc
    · exact exec_runToPrevious_unconfigured hw hc hinv
  · exact exec_returnHome_unconfigured hw hc hinv (atHome_eq_false.2 haway)

end Sys2Proof.Machine
end

section
/-! PROOFS. The reset obligation: the machine's reset and the `RESET` transition give every axis the one reset
channel, and its registers drive both output lines low. -/

namespace Sys2Proof.Machine

/-- Every axis starts with the reset channel (R117), whatever the environment's fields hold. -/
@[simp] theorem chan_reset_with (home port : Level) (tx : List Reply) (script : List Stimulus) (draws : Nat)
    (a : Axis) :
    State.chan { State.reset with
      homeIn := home, portIn := port, tx := tx, script := script, draws := draws } a = Channel.reset := by
  cases a <;> rfl

@[simp] theorem chan_reset (a : Axis) : State.reset.chan a = Channel.reset :=
  chan_reset_with .high .high [] [] 0 a

/-- The values the spec gives an axis at reset, and the levels of its two lines (R117, R26). -/
theorem resetValues_of_chan {t : State} {a : Axis} (h : t.chan a = Channel.reset) :
    (t.chan a).configured = false ∧ (t.chan a).motion = .idle ∧ (t.chan a).steps = 0 ∧
      (t.chan a).dir = .forward ∧ t.stepOut a = .low ∧ t.dirOut a = .low := by
  rw [State.stepOut, State.dirOut, h]
  exact ⟨rfl, rfl, rfl, rfl, rfl, rfl⟩

/-- `RESET` is enabled in every state (R116). It keeps what is not state of the block: the inputs, which the
stimulus sets, the record of replies, the script and the count of draws. -/
theorem step_reset {s : State} {e : Stimulus} {rest : List Stimulus} (hs : s.script = e :: rest)
    (he : e.event = .reset) :
    step s = .next { State.reset with
      homeIn := e.home, portIn := e.port, tx := s.tx, script := rest, draws := s.draws } := by
  rw [step_cons s e rest hs, he]
  simp [perform, doReset]

/-- Settles O48: after either reset every axis holds the reset channel, and the rest is read off the state. -/
theorem resetValues : Obligations.ResetValues := by
  refine ⟨⟨fun a => resetValues_of_chan (chan_reset a), rfl, rfl, rfl⟩, fun s e rest hs he => ?_⟩
  refine ⟨_, step_reset hs he, ⟨fun a => resetValues_of_chan ?_, rfl, rfl, rfl⟩, rfl, rfl⟩
  exact chan_reset_with e.home e.port s.tx rest s.draws a

end Sys2Proof.Machine
end

section
/-! PROOFS. The decoder's two directions, the incomplete stream, and the layout of the reply frames. -/

namespace Sys2Proof

/-! ## From a decoded command back to its bytes -/

/-- A decoded command comes from a cut frame whose `fid` selects it and whose length is its format's. -/
theorem decode_eq_command {bytes rest : List Byte} {i : Instr} (h : decode bytes = .command i rest) :
    ∃ f : Frame, cutFrame bytes = some (f, rest) ∧
      instrOf f.fid.toNat (u32At f.payload 0) (u32At f.payload 4) = some i ∧
      f.packetLength.toNat = i.format.length := by
  rw [decode, decodeWith] at h
  cases hcut : cutFrame bytes with
  | none => simp [hcut] at h
  | some cut =>
    obtain ⟨f, tail⟩ := cut
    simp only [hcut] at h
    by_cases hc : 12 ≤ f.packetLength.toNat
    · cases hi : instrOf f.fid.toNat (u32At f.payload 0) (u32At f.payload 4) with
      | none => simp [decodeFrame_unsupported tail hc hi] at h
      | some j =>
        by_cases hl : f.packetLength.toNat = j.format.length
        · rw [decodeFrame_command tail hc hi hl] at h
          obtain ⟨rfl, rfl⟩ : j = i ∧ tail = rest := by simpa using h
          exact ⟨f, rfl, hi, hl⟩
        · simp [decodeFrame_lengthMismatch tail hc hi hl] at h
    · simp [decodeFrame_lengthBelowHeader tail _ (by omega : f.packetLength.toNat < 12)] at h

/-- A command is selected by its own `fid`, and its payload is as much of the two operand fields as its
format has (R46, R48). -/
theorem instrOf_eq_some {n : Nat} {axis period : Word} {i : Instr} (h : instrOf n axis period = some i) :
    n = i.fid.toNat ∧ i.payload = (wordBytes axis ++ wordBytes period).take (i.format.length - 12) := by
  have hn : n < 8 := by
    by_contra hge
    simp [instrOf_of_eight_le axis period (by omega : 8 ≤ n)] at h
  interval_cases n <;> cases h <;> exact ⟨rfl, rfl⟩

/-- A payload of at most eight bytes is the beginning of the two fields read from it. -/
theorem take_payload_fields (payload : List Byte) (h : payload.length ≤ 8) :
    (wordBytes (u32At payload 0) ++ wordBytes (u32At payload 4)).take payload.length = payload := by
  simp only [u32At, wordBytes_u32le]
  iterate 9
    obtain _ | ⟨_, payload⟩ := payload
    · rfl
  simp at h
  omega

theorem Format.length_mem (fmt : Format) : 12 ≤ fmt.length ∧ fmt.length ≤ 20 := by
  cases fmt <;> decide

/-- Bytes that decode to a command are its encoding, but for the `error` field. -/
theorem eq_encodeWith_of_decode {bytes rest : List Byte} {i : Instr} (h : decode bytes = .command i rest) :
    ∃ error : Word, bytes = encodeWith error i ++ rest := by
  obtain ⟨f, hcut, hi, hl⟩ := decode_eq_command h
  obtain ⟨-, -, hbytes, hpayload⟩ := cutFrame_eq_some hcut
  obtain ⟨hfid, hfields⟩ := instrOf_eq_some hi
  have hmem := i.format.length_mem
  have hframe : f = i.frame f.error := by
    obtain ⟨len, fid, err, payload⟩ := f
    simp only at hfid hl hpayload hfields
    have hlen : len = BitVec.ofNat 32 i.format.length := by rw [← hl]; simp
    rw [← hl, ← hpayload, take_payload_fields payload (by omega)] at hfields
    rw [Instr.frame, hlen, BitVec.eq_of_toNat_eq hfid, hfields]
  exact ⟨f.error, by rw [hbytes, encodeWith, ← hframe]⟩

/-! ## The incomplete stream -/

/-- No branch of the dispatch says that the frame is incomplete. -/
theorem decodeFrame_ne_incomplete (bound : Nat → Bool) (f : Frame) (rest : List Byte) :
    decodeFrame bound f rest ≠ .incomplete := by
  simp only [decodeFrame]
  cases f.coversHeader with
  | false => simp
  | true =>
    cases instrOf f.fid.toNat (u32At f.payload 0) (u32At f.payload 4) with
    | none => simp
    | some i => cases bound f.fid.toNat <;> cases hfit : f.fitsFormat i.format <;> simp [hfit]

theorem decode_eq_incomplete_iff (bytes : List Byte) : decode bytes = .incomplete ↔ cutFrame bytes = none := by
  rw [decode, decodeWith]
  cases cutFrame bytes with
  | none => simp
  | some cut => simpa using decodeFrame_ne_incomplete _ cut.1 cut.2

theorem cutFrame_eq_none_iff (bytes : List Byte) :
    cutFrame bytes = none ↔ bytes.length < 12 ∨ bytes.length < (u32At bytes 0).toNat := by
  by_cases h12 : bytes.length < 12
  · simp [cutFrame, h12]
  · by_cases hl : bytes.length < (u32At bytes 0).toNat <;> simp [cutFrame, h12, hl]

/-! ## The obligations about requests -/

/-- Settles O1: the frame of a command is complete and its fields select the command. -/
theorem decodeOfEncodeIsTheCommand : Obligations.DecodeOfEncodeIsTheCommand := decode_encodeWith

/-- Settles O2: the cut frame is the command's own, field by field. -/
theorem decodedBytesAreTheEncoding : Obligations.DecodedBytesAreTheEncoding :=
  fun _ _ _ h => eq_encodeWith_of_decode h

/-- Settles O8: only the cutting of the frame can find it incomplete. -/
theorem shortStreamIsIncomplete : Obligations.ShortStreamIsIncomplete := fun bytes => by
  rw [decode_eq_incomplete_iff, cutFrame_eq_none_iff]

end Sys2Proof

namespace Sys2Proof.Machine

/-! ## Reply frames -/

theorem encodeReply_length (r : Reply) : (encodeReply r).length = 12 + r.payload.bytes.length := by
  simp only [encodeReply, List.length_append, wordBytes_length]

/-- The three header fields of a reply (R45), while its length fits the field. -/
theorem encodeReply_header (r : Reply) :
    u32At (encodeReply r) 0 = BitVec.ofNat 32 (12 + r.payload.bytes.length) ∧
      u32At (encodeReply r) 4 = r.fid ∧ u32At (encodeReply r) 8 = r.status.code :=
  ⟨u32le_wordBytes _, u32le_wordBytes _, u32le_wordBytes _⟩

theorem encodeReply_drop_header (r : Reply) : (encodeReply r).drop 12 = r.payload.bytes := rfl

theorem sysInfo_bytes_length (t₁ t₂ t₃ t₄ : List (Fin 127)) :
    (Payload.sysInfo (sysInfoField t₁) (sysInfoField t₂) (sysInfoField t₃) (sysInfoField t₄)).bytes.length
      = 128 := by
  simp [Payload.bytes, sysInfoField_length]

/-- A text of at most 31 characters is not cut (R47). -/
theorem sysInfoField_of_length_le {t : List (Fin 127)} (h : t.length ≤ 31) :
    sysInfoField t = t.map (fun c => BitVec.ofNat 8 (c.val + 1)) ++ List.replicate (32 - t.length) 0 := by
  simp [sysInfoField, Config.sysInfoStrLen, List.take_of_length_le h]

/-- The last byte of a sysinfo field is its padding, whatever the text (log 15). -/
theorem sysInfoField_getD_last (t : List (Fin 127)) : (sysInfoField t).getD 31 1 = 0 := by
  simp only [sysInfoField, Config.sysInfoStrLen]
  rw [List.getD_append_right _ _ _ _ (by simp)]
  rw [List.getD_eq_getElem _ _ (by simp; omega), List.getElem_replicate]

/-- Settles O11: each field of a reply is read from its own four bytes. -/
theorem replyFrameLayout : Obligations.ReplyFrameLayout := by
  refine ⟨fun fid st => List.append_nil _, fun fid st m b h p v f => ?_, fun fid st t₁ t₂ t₃ t₄ => ?_,
    fun t => sysInfoField_of_length_le, fun t => ⟨sysInfoField_length t, sysInfoField_getD_last t⟩⟩
  · exact ⟨rfl, u32le_wordBytes _, u32le_wordBytes _, u32le_wordBytes _, u32le_wordBytes _,
      u32le_wordBytes _, u32le_wordBytes _, u32le_wordBytes _, u32le_wordBytes _, u32le_wordBytes _⟩
  · have hlength := sysInfo_bytes_length t₁ t₂ t₃ t₄
    obtain ⟨hlen, hfid, hstatus⟩ := encodeReply_header ⟨fid, st,
      .sysInfo (sysInfoField t₁) (sysInfoField t₂) (sysInfoField t₃) (sysInfoField t₄)⟩
    refine ⟨by rw [encodeReply_length, hlength], by rw [hlen, hlength]; rfl, hfid, hstatus, ?_⟩
    have hdrop (n : Nat) : (encodeReply ⟨fid, st,
        .sysInfo (sysInfoField t₁) (sysInfoField t₂) (sysInfoField t₃) (sysInfoField t₄)⟩).drop (12 + n) =
        (sysInfoField t₁ ++ sysInfoField t₂ ++ sysInfoField t₃ ++ sysInfoField t₄).drop n := by
      rw [← List.drop_drop, encodeReply_drop_header, Payload.bytes]
    rw [hdrop 0, hdrop 32, hdrop 64, hdrop 96]
    simp [List.drop_append, sysInfoField_length, List.drop_eq_nil_of_le]

/-- Settles O57: the codes are the constructors' rows, and a direction line has its direction's code. -/
theorem enumerationCodes : Obligations.EnumerationCodes := by
  refine ⟨by decide, fun st => by cases st <;> decide, by decide, by decide, by decide, by decide, by decide,
    by decide, fun s a => ⟨?_, rfl⟩⟩
  rw [State.dirOut]
  cases (s.chan a).dir <;> rfl

end Sys2Proof.Machine
end

section
/-! PROOFS. What a command and a transition can do, each said once as a relation with one constructor per case
of the spec; the theorems `exec_next` and `perform_next` tie the relations to `exec` and `perform`, and the later
proofs go through them. -/

namespace Sys2Proof.Machine

/-! ## The registers of an axis after the generator's operations -/

/-- The registers of a configured axis after `GenRun` (R61): a running axis is left alone. -/
def Channel.run (c : Channel) : Channel :=
  match c.motion with
  | .running => c
  | .idle =>
    { c with
      steps := 0
      halfLatch := halfInterval c.period
      tickIn := halfInterval c.period
      motion := .running }

/-- The registers of an axis after the edge action (R74): as `Channel.stopped`, with the count kept. -/
def Channel.halted (c : Channel) : Channel := { c with motion := .idle, pin := .low, dir := .forward }

section
variable (c : Channel)

theorem Channel.run_of_running (h : c.motion = .running) : c.run = c := by simp only [Channel.run, h]

theorem Channel.run_of_idle (h : c.motion = .idle) : c.run =
    { c with
      steps := 0, halfLatch := halfInterval c.period, tickIn := halfInterval c.period, motion := .running } := by
  simp only [Channel.run, h]

@[simp] theorem Channel.run_motion : c.run.motion = .running := by
  cases h : c.motion <;> simp [Channel.run, h]
@[simp] theorem Channel.run_period : c.run.period = c.period := by
  cases h : c.motion <;> simp [Channel.run, h]
@[simp] theorem Channel.run_configured : c.run.configured = c.configured := by
  cases h : c.motion <;> simp [Channel.run, h]
@[simp] theorem Channel.run_dir : c.run.dir = c.dir := by
  cases h : c.motion <;> simp [Channel.run, h]
@[simp] theorem Channel.run_pin : c.run.pin = c.pin := by
  cases h : c.motion <;> simp [Channel.run, h]

/-- A tick changes the line, perhaps the count, and the timer's phase. -/
@[simp] theorem Channel.tick_motion : c.tick.motion = c.motion := by cases h : c.pin <;> simp [Channel.tick, h]
@[simp] theorem Channel.tick_period : c.tick.period = c.period := by cases h : c.pin <;> simp [Channel.tick, h]
@[simp] theorem Channel.tick_configured : c.tick.configured = c.configured := by
  cases h : c.pin <;> simp [Channel.tick, h]
@[simp] theorem Channel.tick_dir : c.tick.dir = c.dir := by cases h : c.pin <;> simp [Channel.tick, h]
@[simp] theorem Channel.tick_halfLatch : c.tick.halfLatch = c.halfLatch := by
  cases h : c.pin <;> simp [Channel.tick, h]
@[simp] theorem Channel.tick_tickIn : c.tick.tickIn = c.halfLatch := by
  cases h : c.pin <;> simp [Channel.tick, h]

end

/-! ## The state's operations -/

/-- The state after a homing-class command that ran axis `a`, leaving the channel `c` (R69, R83 to R85). -/
def State.homed (s : State) (a : Axis) (m : HomingMode) (c : Channel) : State :=
  { sessionArm a m (s.setChan a c) with board := .pumpRunning }

section
variable (s : State) (a b : Axis) (c : Channel) (m : HomingMode)

/-- No channel is changed by an update of the other fields. -/
@[simp] theorem chan_with_rest (board seq armed axis mode prev pollIn home port rx tx script draws) :
    State.chan { s with
      board := board, seq := seq, pollArmed := armed, sessAxis := axis, sessMode := mode, prevPort := prev,
      pollIn := pollIn, homeIn := home, portIn := port, rx := rx, tx := tx, script := script,
      draws := draws } a = s.chan a := by
  cases a <;> rfl

theorem chan_homed : (s.homed a m c).chan b = if b = a then c else s.chan b := by
  rw [← chan_setChan]
  cases b <;> rfl
@[simp] theorem chan_homed_same : (s.homed a m c).chan a = c := by simp [chan_homed]
@[simp] theorem homed_board : (s.homed a m c).board = .pumpRunning := rfl
@[simp] theorem homed_seq : (s.homed a m c).seq = s.seq := by simp [State.homed, sessionArm]
@[simp] theorem homed_pollArmed : (s.homed a m c).pollArmed = true := rfl
@[simp] theorem homed_sessAxis : (s.homed a m c).sessAxis = a := rfl
@[simp] theorem homed_sessMode : (s.homed a m c).sessMode = m := rfl
@[simp] theorem homed_prevPort_home : (s.homed a .home c).prevPort = s.prevPort := by
  simp [State.homed, sessionArm]
@[simp] theorem homed_prevPort_port : (s.homed a .port c).prevPort = s.portIn := by
  simp [State.homed, sessionArm, State.samplePort]
@[simp] theorem homed_pollIn : (s.homed a m c).pollIn = Config.pollInterval := rfl
@[simp] theorem homed_homeIn : (s.homed a m c).homeIn = s.homeIn := by simp [State.homed, sessionArm]
@[simp] theorem homed_portIn : (s.homed a m c).portIn = s.portIn := by simp [State.homed, sessionArm]
@[simp] theorem homed_rx : (s.homed a m c).rx = s.rx := by simp [State.homed, sessionArm]
@[simp] theorem homed_tx : (s.homed a m c).tx = s.tx := by simp [State.homed, sessionArm]
@[simp] theorem homed_script : (s.homed a m c).script = s.script := by simp [State.homed, sessionArm]
@[simp] theorem homed_draws : (s.homed a m c).draws = s.draws := by simp [State.homed, sessionArm]

@[simp] theorem setDir_dir : s.setDir a (s.chan a).dir = s := setChan_chan s a

/-- The board rule writes the board alone. -/
theorem boardIdleIfAllIdle_eq :
    boardIdleIfAllIdle s = { s with board := if s.allIdle then .idle else s.board } := by
  obtain ⟨h, he⟩ | ⟨h, he⟩ := boardIdleIfAllIdle_cases s <;> rw [he, h] <;> rfl

@[simp] theorem boardIdleIfAllIdle_board :
    (boardIdleIfAllIdle s).board = if s.allIdle then .idle else s.board := by rw [boardIdleIfAllIdle_eq]
@[simp] theorem boardIdleIfAllIdle_seq : (boardIdleIfAllIdle s).seq = s.seq := by rw [boardIdleIfAllIdle_eq]
@[simp] theorem boardIdleIfAllIdle_pollArmed : (boardIdleIfAllIdle s).pollArmed = s.pollArmed := by
  rw [boardIdleIfAllIdle_eq]
@[simp] theorem boardIdleIfAllIdle_sessAxis : (boardIdleIfAllIdle s).sessAxis = s.sessAxis := by
  rw [boardIdleIfAllIdle_eq]
@[simp] theorem boardIdleIfAllIdle_sessMode : (boardIdleIfAllIdle s).sessMode = s.sessMode := by
  rw [boardIdleIfAllIdle_eq]
@[simp] theorem boardIdleIfAllIdle_prevPort : (boardIdleIfAllIdle s).prevPort = s.prevPort := by
  rw [boardIdleIfAllIdle_eq]
@[simp] theorem boardIdleIfAllIdle_pollIn : (boardIdleIfAllIdle s).pollIn = s.pollIn := by
  rw [boardIdleIfAllIdle_eq]
@[simp] theorem boardIdleIfAllIdle_homeIn : (boardIdleIfAllIdle s).homeIn = s.homeIn := by
  rw [boardIdleIfAllIdle_eq]
@[simp] theorem boardIdleIfAllIdle_portIn : (boardIdleIfAllIdle s).portIn = s.portIn := by
  rw [boardIdleIfAllIdle_eq]
@[simp] theorem boardIdleIfAllIdle_rx : (boardIdleIfAllIdle s).rx = s.rx := by rw [boardIdleIfAllIdle_eq]
@[simp] theorem boardIdleIfAllIdle_tx : (boardIdleIfAllIdle s).tx = s.tx := by rw [boardIdleIfAllIdle_eq]
@[simp] theorem boardIdleIfAllIdle_script : (boardIdleIfAllIdle s).script = s.script := by
  rw [boardIdleIfAllIdle_eq]
@[simp] theorem boardIdleIfAllIdle_draws : (boardIdleIfAllIdle s).draws = s.draws := by
  rw [boardIdleIfAllIdle_eq]

/-- The edge action (R74) as one channel write and the board rule. -/
theorem edgeAction_eq : edgeAction a s =
    boardIdleIfAllIdle (State.setChan { s with pollArmed := false } a (s.chan a).halted) := by
  simp [edgeAction, genStop, State.setDir, Channel.halted]

variable {a s}

theorem genRun_configured (hc : (s.chan a).configured = true) :
    genRun a s = (true, s.setChan a (s.chan a).run) := by
  cases hm : (s.chan a).motion <;> simp [genRun, hc, hm, Channel.run]

/-- The tail of the homing-class commands on a configured axis whose direction was set to `d`. -/
theorem runAndArm_configured (fid : Word) (d : Direction) (revert : State → State)
    (hc : (s.chan a).configured = true) :
    runAndArm fid a m revert (s.setDir a d) =
      .next ((s.homed a m { s.chan a with dir := d }.run).reply fid .ok .ack) := by
  have hrun := genRun_configured (s := s.setDir a d) (a := a) (by simpa using hc)
  simp only [State.setDir, chan_setChan_same, setChan_setChan] at hrun
  simp only [runAndArm, State.setDir, hrun]
  rfl

end

/-! ## Commands -/

/-- A homing-class command in state `s`, past its axis check: its axis field, the mode it arms, the direction
it gives axis `a` when the axis runs, and the one it leaves when the run fails (R83 to R85). -/
inductive HomingCommand (s : State) (a : Axis) : Instr → Word → HomingMode → Direction → Direction → Prop
  | returnHome {w : Word} (haway : atHome s.homeIn s.portIn = false) :
      HomingCommand s a (.returnHome w) w .home .reverse .forward
  | runToNext {w : Word} : HomingCommand s a (.runToNext w) w .port (s.chan a).dir (s.chan a).dir
  | runToPrevious {w : Word} : HomingCommand s a (.runToPrevious w) w .port .reverse .forward

/-- `Executes s i t`: command `i`, in state `s`, completes in state `t` (R79 to R86, R97 to R100). -/
inductive Executes (s : State) : Instr → State → Prop
  | invalidAxis {i : Instr} {w : Word} (hi : i.axisField = some w) (hw : axisOf w = none)
      (hp : ∀ p, i = .setConfig w p → validPeriod p = true) : Executes s i (s.reply i.fid .invalidAxis .ack)
  | invalidPeriod {w p : Word} (hp : validPeriod p = false) :
      Executes s (.setConfig w p) (s.reply 7 .invalidParameter .ack)
  | configure {w p : Word} {a : Axis} (hp : validPeriod p = true) (hw : w.toNat = a.index) :
      Executes s (.setConfig w p)
        ((s.setChan a { s.chan a with period := p, configured := true }).reply 7 .ok .ack)
  | status {w : Word} {a : Axis} {rate : Word} {draws : Nat} (hw : w.toNat = a.index)
      (hf : flowField a s = (rate, { s with draws := draws })) :
      Executes s (.getStatus w) (State.reply { s with draws := draws } 0 .ok
        (.status (s.chan a).motion s.board s.homeIn s.portIn (volume (s.chan a).steps) rate))
  | sysInfo : Executes s .getSysInfo (s.reply 6 .ok
      (.sysInfo (sysInfoField Config.fwVersionText) (sysInfoField Config.deviceIdText)
        (sysInfoField Config.ipAddrText) (sysInfoField Config.macAddrText)))
  | stop {w : Word} {a : Axis} (hw : w.toNat = a.index) :
      Executes s (.stopStepper w)
        ((boardIdleIfAllIdle (s.setChan a (s.chan a).stopped)).reply 2 .ok .ack)
  | run {w : Word} {a : Axis} (hw : w.toNat = a.index) (hc : (s.chan a).configured = true) :
      Executes s (.runStepper w)
        (State.reply { s.setChan a (s.chan a).run with board := .pumpRunning } 1 .ok .ack)
  | runUnconfigured {w : Word} {a : Axis} (hw : w.toNat = a.index) (hc : (s.chan a).configured = false) :
      Executes s (.runStepper w) (s.reply 1 .flowNotConfigured .ack)
  | atHome {w : Word} {a : Axis} (hw : w.toNat = a.index) (hhome : Machine.atHome s.homeIn s.portIn = true) :
      Executes s (.returnHome w) (s.reply 3 .ok .ack)
  | homing {i : Instr} {w : Word} {a : Axis} {m : HomingMode} {d d' : Direction}
      (hi : HomingCommand s a i w m d d') (hw : w.toNat = a.index) (hc : (s.chan a).configured = true) :
      Executes s i ((s.homed a m { s.chan a with dir := d }.run).reply i.fid .ok .ack)
  | homingUnconfigured {i : Instr} {w : Word} {a : Axis} {m : HomingMode} {d d' : Direction}
      (hi : HomingCommand s a i w m d d') (hw : w.toNat = a.index) (hc : (s.chan a).configured = false) :
      Executes s i ((s.setDir a d').reply i.fid .flowNotConfigured .ack)

/-- The flow field writes at most the count of draws (log 11). -/
theorem flowField_draws (a : Axis) (s : State) :
    ∃ rate draws, flowField a s = (rate, { s with draws := draws }) := by
  obtain ⟨-, h⟩ | ⟨-, -, h⟩ | ⟨-, -, h⟩ := flowField_cases a s
  · exact ⟨_, s.draws, h⟩
  · exact ⟨_, s.draws, h⟩
  · exact ⟨_, _, h⟩

/-- Every homing-class command on a configured axis does what `Executes.homing` says. -/
theorem HomingCommand.exec_configured {s : State} {a : Axis} {i : Instr} {w : Word} {m : HomingMode}
    {d d' : Direction} (hi : HomingCommand s a i w m d d') (hw : w.toNat = a.index)
    (hc : (s.chan a).configured = true) :
    exec i s = .next ((s.homed a m { s.chan a with dir := d }.run).reply i.fid .ok .ack) := by
  have haxis := (axisOf_eq_some w a).2 hw
  cases hi with
  | returnHome haway =>
    simpa [exec, execReturnHome, haxis, State.sampleHome, State.samplePort, haway, Instr.fid]
      using runAndArm_configured _ _ _ _ hc
  | runToNext =>
    have hrun := runAndArm_configured .port 4 (s.chan a).dir id hc
    rw [setDir_dir] at hrun
    simpa [exec, execRunToNext, haxis, Instr.fid] using hrun
  | runToPrevious => simpa [exec, execRunToPrevious, haxis, Instr.fid] using runAndArm_configured _ _ _ _ hc

/-- Every homing-class command on an unconfigured axis does what `Executes.homingUnconfigured` says. -/
theorem HomingCommand.exec_unconfigured {s : State} {a : Axis} {i : Instr} {w : Word} {m : HomingMode}
    {d d' : Direction} (hi : HomingCommand s a i w m d d') (hw : w.toNat = a.index)
    (hc : (s.chan a).configured = false) :
    exec i s = .next ((s.setDir a d').reply i.fid .flowNotConfigured .ack) := by
  have haxis := (axisOf_eq_some w a).2 hw
  have hrevert : (s.setDir a .reverse).setDir a .forward = s.setDir a .forward := by simp [State.setDir]
  cases hi with
  | returnHome haway =>
    have hfail := runAndArm_unconfigured (s := s.setDir a .reverse) (a := a) 3 .home
      (fun t => t.setDir a .forward) (by simpa using hc)
    simpa [exec, execReturnHome, haxis, State.sampleHome, State.samplePort, haway, hrevert, Instr.fid, State.raise]
      using hfail
  | runToNext => rw [setDir_dir]; exact exec_runToNext_unconfigured hw hc
  | runToPrevious =>
    have hfail := runAndArm_unconfigured (s := s.setDir a .reverse) (a := a) 5 .port
      (fun t => t.setDir a .forward) (by simpa using hc)
    simpa [exec, execRunToPrevious, haxis, hrevert, Instr.fid, State.raise] using hfail

/-- The relation is sound: what it says is what `exec` answers. -/
theorem Executes.exec_eq {s t : State} {i : Instr} (h : Executes s i t) : exec i s = .next t := by
  cases h with
  | invalidAxis hi hw hp => exact exec_invalidAxis s hi hw hp
  | invalidPeriod hp => exact exec_setConfig_invalidPeriod s _ hp
  | configure hp hw => exact exec_setConfig_axis s hp hw
  | status hw hf => exact exec_getStatus_axis s hw hf
  | sysInfo => rfl
  | stop hw => exact exec_stopStepper_axis s hw
  | @run w a hw hc =>
    simp [exec, execRunStepper, (axisOf_eq_some w a).2 hw, genRun_configured hc, State.ack]
  | runUnconfigured hw hc => exact exec_runStepper_unconfigured hw hc
  | @atHome w a hw hhome =>
    simp [exec, execReturnHome, (axisOf_eq_some w a).2 hw, State.sampleHome, State.samplePort, hhome, State.ack]
  | homing hi hw hc => exact hi.exec_configured hw hc
  | homingUnconfigured hi hw hc => exact hi.exec_unconfigured hw hc

/-- A homing-class command on a valid axis, away from home, completes by the flag of the axis. -/
theorem HomingCommand.executes {s : State} {a : Axis} {i : Instr} {w : Word} {m : HomingMode}
    {d d' : Direction} (hi : HomingCommand s a i w m d d') (hw : w.toNat = a.index) : ∃ t, Executes s i t := by
  cases hc : (s.chan a).configured with
  | false => exact ⟨_, .homingUnconfigured hi hw hc⟩
  | true => exact ⟨_, .homing hi hw hc⟩

/-- Every command completes, in every state (R57, R92). -/
theorem exists_executes (i : Instr) (s : State) : ∃ t, Executes s i t := by
  have haxis (w : Word) : axisOf w = none ∨ ∃ a : Axis, w.toNat = a.index := by
    cases h : axisOf w with
    | none => exact .inl rfl
    | some a => exact .inr ⟨a, (axisOf_eq_some w a).1 h⟩
  cases i with
  | getStatus w =>
    obtain hw | ⟨a, hw⟩ := haxis w
    · exact ⟨_, .invalidAxis rfl hw nofun⟩
    · obtain ⟨rate, draws, hf⟩ := flowField_draws a s
      exact ⟨_, .status hw hf⟩
  | runStepper w =>
    obtain hw | ⟨a, hw⟩ := haxis w
    · exact ⟨_, .invalidAxis rfl hw nofun⟩
    · cases hc : (s.chan a).configured with
      | false => exact ⟨_, .runUnconfigured hw hc⟩
      | true => exact ⟨_, .run hw hc⟩
  | stopStepper w =>
    obtain hw | ⟨a, hw⟩ := haxis w
    · exact ⟨_, .invalidAxis rfl hw nofun⟩
    · exact ⟨_, .stop hw⟩
  | returnHome w =>
    obtain hw | ⟨a, hw⟩ := haxis w
    · exact ⟨_, .invalidAxis rfl hw nofun⟩
    · cases hhome : atHome s.homeIn s.portIn with
      | true => exact ⟨_, .atHome hw hhome⟩
      | false => exact (HomingCommand.returnHome (a := a) hhome).executes hw
  | runToNext w =>
    obtain hw | ⟨a, hw⟩ := haxis w
    · exact ⟨_, .invalidAxis rfl hw nofun⟩
    · exact (HomingCommand.runToNext (s := s) (a := a)).executes hw
  | runToPrevious w =>
    obtain hw | ⟨a, hw⟩ := haxis w
    · exact ⟨_, .invalidAxis rfl hw nofun⟩
    · exact (HomingCommand.runToPrevious (s := s) (a := a)).executes hw
  | getSysInfo => exact ⟨_, .sysInfo⟩
  | setConfig w p =>
    cases hp : validPeriod p with
    | false => exact ⟨_, .invalidPeriod hp⟩
    | true =>
      obtain hw | ⟨a, hw⟩ := haxis w
      · exact ⟨_, .invalidAxis rfl hw (by rintro p' ⟨⟩; exact hp)⟩
      · exact ⟨_, .configure hp hw⟩

/-- And complete: whatever `exec` answers is one of the cases of the relation. -/
theorem exec_next {i : Instr} {s t : State} : exec i s = .next t ↔ Executes s i t := by
  refine ⟨fun h => ?_, Executes.exec_eq⟩
  obtain ⟨u, hu⟩ := exists_executes i s
  obtain rfl : u = t := by simpa [hu.exec_eq] using h
  exact hu

/-! ## Transitions -/

/-- `Performs s e t`: the transition `e`, enabled in state `s`, leads to state `t` (R8). -/
inductive Performs (s : State) : Event → State → Prop
  | listen (hq : s.seq = .preListen) :
      Performs s .listen { s with board := .waitForConnection, seq := .listening }
  | accept (hq : s.seq = .listening) : Performs s .accept { s with board := .idle, seq := .opened }
  | disconnect (hq : s.seq = .opened) :
      Performs s .disconnect { s with board := .waitForConnection, seq := .preListen, rx := [] }
  | send {bytes : List Byte} (hq : s.seq = .opened) : Performs s (.send bytes) { s with rx := s.rx ++ bytes }
  | command {i : Instr} {tail : List Byte} {t : State} (hq : s.seq = .opened)
      (hd : decode s.rx = .command i tail) (hx : Executes { s with rx := tail } i t) : Performs s .command t
  | unsupported {fid : Word} {tail : List Byte} (hq : s.seq = .opened)
      (hd : decode s.rx = .unsupported fid tail) :
      Performs s .command (State.reply { s with rx := tail } fid .notSupported .ack)
  | tick {a : Axis} (hm : (s.chan a).motion = .running) :
      Performs s (.tick a) (s.setChan a (s.chan a).tick)
  | pollStopped (ha : s.pollArmed = true) (hm : (s.chan s.sessAxis).motion = .idle) :
      Performs s .poll { s with pollArmed := false }
  | pollEdge (ha : s.pollArmed = true) (hm : (s.chan s.sessAxis).motion = .running)
      (hd : (detect s).1 = true) :
      Performs s .poll (boardIdleIfAllIdle (State.setChan
        { s with prevPort := (detect s).2, pollIn := Config.pollInterval, pollArmed := false }
        s.sessAxis (s.chan s.sessAxis).halted))
  | pollQuiet (ha : s.pollArmed = true) (hm : (s.chan s.sessAxis).motion = .running)
      (hd : (detect s).1 = false) :
      Performs s .poll { s with prevPort := (detect s).2, pollIn := Config.pollInterval }
  | reset : Performs s .reset { State.reset with
      homeIn := s.homeIn, portIn := s.portIn, tx := s.tx, script := s.script, draws := s.draws }

/-- A poll completes exactly as the relation says. -/
theorem doPoll_next (s t : State) : doPoll s = .next t ↔ Performs s .poll t := by
  constructor
  · intro h
    obtain ⟨ha, he⟩ | ⟨ha, hm, he⟩ | ⟨ha, hm, hd, he⟩ | ⟨ha, hm, hd, he⟩ := doPoll_cases s
    · simp [he] at h
    · obtain rfl : _ = t := by simpa [he] using h
      exact .pollStopped ha hm
    · rw [he, edgeAction_eq] at h
      obtain rfl : _ = t := by simpa using h
      exact .pollEdge ha hm hd
    · obtain rfl : _ = t := by simpa [he] using h
      exact .pollQuiet ha hm hd
  · intro h
    cases h with
    | pollStopped ha hm => simp [doPoll, ha, hm]
    | pollEdge ha hm hd => simp [doPoll, ha, hm, hd, edgeAction_eq]
    | pollQuiet ha hm hd => simp [doPoll, ha, hm, hd]

/-- A transition completes exactly as the relation says. -/
theorem perform_next {e : Event} {s t : State} : perform e s = .next t ↔ Performs s e t := by
  constructor
  · intro h
    cases e with
    | listen => obtain ⟨hq, rfl⟩ := (doListen_next s t).1 h; exact .listen hq
    | accept => obtain ⟨hq, rfl⟩ := (doAccept_next s t).1 h; exact .accept hq
    | disconnect => obtain ⟨hq, rfl⟩ := (doDisconnect_next s t).1 h; exact .disconnect hq
    | command =>
      obtain ⟨hq, ⟨i, tail, hd, hx⟩ | ⟨fid, tail, hd, rfl⟩⟩ := (receiveCommand_next s t).1 h
      · exact .command hq hd (exec_next.1 hx)
      · exact .unsupported hq hd
    | send bytes => obtain ⟨hq, rfl⟩ := (doSend_next bytes s t).1 h; exact .send hq
    | tick a => obtain ⟨hm, rfl⟩ := (doTick_next a s t).1 h; exact .tick hm
    | poll => exact (doPoll_next s t).1 h
    | reset => cases h; exact .reset
  · intro h
    cases h with
    | listen hq => exact (doListen_next s _).2 ⟨hq, rfl⟩
    | accept hq => exact (doAccept_next s _).2 ⟨hq, rfl⟩
    | disconnect hq => exact (doDisconnect_next s _).2 ⟨hq, rfl⟩
    | command hq hd hx => exact (receiveCommand_next s t).2 ⟨hq, .inl ⟨_, _, hd, exec_next.2 hx⟩⟩
    | unsupported hq hd => exact (receiveCommand_next s _).2 ⟨hq, .inr ⟨_, _, hd, rfl⟩⟩
    | send hq => exact (doSend_next _ s _).2 ⟨hq, rfl⟩
    | tick hm => exact (doTick_next _ s _).2 ⟨hm, rfl⟩
    | pollStopped ha hm => exact (doPoll_next s _).2 (.pollStopped ha hm)
    | pollEdge ha hm hd => exact (doPoll_next s _).2 (.pollEdge ha hm hd)
    | pollQuiet ha hm hd => exact (doPoll_next s _).2 (.pollQuiet ha hm hd)
    | reset => rfl

/-- A step performs the first stimulus of its script, in the state entered with it. -/
theorem step_next {s t : State} {e : Stimulus} {rest : List Stimulus} (hs : s.script = e :: rest) :
    step s = .next t ↔ Performs (s.enter e rest) e.event t := by
  rw [step_cons s e rest hs, perform_next]

end Sys2Proof.Machine
end

section
/-! PROOFS. The command obligations: the one reply, the results of the run-class commands, and the frames, each
read off the cases of `Executes`. -/

namespace Sys2Proof.Machine

/-! ## The reply and the environment's fields -/

section
variable {s t : State} {i : Instr}

theorem Executes.seq_eq (h : Executes s i t) : t.seq = s.seq := by cases h <;> simp
theorem Executes.rx_eq (h : Executes s i t) : t.rx = s.rx := by cases h <;> simp
theorem Executes.script_eq (h : Executes s i t) : t.script = s.script := by cases h <;> simp
theorem Executes.homeIn_eq (h : Executes s i t) : t.homeIn = s.homeIn := by cases h <;> simp
theorem Executes.portIn_eq (h : Executes s i t) : t.portIn = s.portIn := by cases h <;> simp

/-- The length of the reply to a command answered OK (R47, R57). -/
def replyLength : Instr → Nat
  | .getStatus _ => 36
  | .getSysInfo => 140
  | _ => 12

theorem HomingCommand.replyLength_eq {a : Axis} {w : Word} {m : HomingMode} {d d' : Direction}
    (hi : HomingCommand s a i w m d d') : replyLength i = 12 := by
  cases hi <;> rfl

/-- Every command appends one reply, with its `fid`; an error has no payload (R57). -/
theorem Executes.reply (h : Executes s i t) : ∃ r : Reply, t.tx = s.tx ++ [r] ∧ r.fid = i.fid ∧
    (r.status ≠ .ok → r.payload = .ack) ∧
    (encodeReply r).length = if r.status = .ok then replyLength i else 12 := by
  have hack (fid : Word) (st : Status) : (encodeReply ⟨fid, st, .ack⟩).length = 12 := rfl
  cases h with
  | invalidAxis hi hw hp => exact ⟨_, reply_tx .., rfl, fun _ => rfl, hack _ _⟩
  | invalidPeriod hp => exact ⟨_, reply_tx .., rfl, fun _ => rfl, hack _ _⟩
  | configure hp hw => exact ⟨_, by rw [reply_tx, setChan_tx], rfl, fun _ => rfl, hack _ _⟩
  | status hw hf => exact ⟨_, reply_tx .., rfl, fun h => absurd rfl h, rfl⟩
  | sysInfo =>
    exact ⟨_, reply_tx .., rfl, fun h => absurd rfl h, by rw [encodeReply_length, sysInfo_bytes_length]; rfl⟩
  | stop hw => exact ⟨_, by rw [reply_tx, boardIdleIfAllIdle_tx, setChan_tx], rfl, fun _ => rfl, hack _ _⟩
  | run hw hc => exact ⟨_, by rw [reply_tx, setChan_tx], rfl, fun _ => rfl, hack _ _⟩
  | runUnconfigured hw hc => exact ⟨_, reply_tx .., rfl, fun _ => rfl, hack _ _⟩
  | atHome hw hhome => exact ⟨_, reply_tx .., rfl, fun _ => rfl, hack _ _⟩
  | homing hi hw hc =>
    exact ⟨⟨i.fid, .ok, .ack⟩, by rw [reply_tx, homed_tx], rfl, fun _ => rfl,
      by rw [hack, if_pos rfl, hi.replyLength_eq]⟩
  | homingUnconfigured hi hw hc => exact ⟨_, by rw [reply_tx, setDir_tx], rfl, fun _ => rfl, hack _ _⟩

/-- Under the invariant the direction that a failed homing-class command leaves is the one it found. -/
theorem HomingCommand.setDir_revert {a : Axis} {w : Word} {m : HomingMode} {d d' : Direction}
    (hi : HomingCommand s a i w m d d') (hinv : s.Inv) (hc : (s.chan a).configured = false) :
    s.setDir a d' = s := by
  have hforward := (hinv.chan a).dir_eq_forward hc
  cases hi with
  | returnHome haway => rw [← hforward, setDir_dir]
  | runToNext => exact setDir_dir s a
  | runToPrevious => rw [← hforward, setDir_dir]

/-- Under the invariant a command either answers OK or only reports (R97). -/
theorem Executes.ok_or_eq_reply (h : Executes s i t) (hinv : s.Inv) :
    (∃ p, t.tx = s.tx ++ [⟨i.fid, .ok, p⟩]) ∨ ∃ st, t = s.reply i.fid st .ack := by
  cases h with
  | invalidAxis hi hw hp => exact .inr ⟨_, rfl⟩
  | invalidPeriod hp => exact .inr ⟨_, rfl⟩
  | configure hp hw => exact .inl ⟨_, by rw [reply_tx, setChan_tx]; rfl⟩
  | status hw hf => exact .inl ⟨_, reply_tx ..⟩
  | sysInfo => exact .inl ⟨_, reply_tx ..⟩
  | stop hw => exact .inl ⟨_, by rw [reply_tx, boardIdleIfAllIdle_tx, setChan_tx]; rfl⟩
  | run hw hc => exact .inl ⟨_, by rw [reply_tx, setChan_tx]; rfl⟩
  | runUnconfigured hw hc => exact .inr ⟨_, rfl⟩
  | atHome hw hhome => exact .inl ⟨_, reply_tx ..⟩
  | homing hi hw hc => exact .inl ⟨_, by rw [reply_tx, homed_tx]⟩
  | homingUnconfigured hi hw hc => exact .inr ⟨_, by rw [hi.setDir_revert hinv hc]⟩

end

/-- Settles O13: the cases of a command share one reply and leave the environment's fields. -/
theorem everyCommandRepliesOnce : Obligations.EveryCommandRepliesOnce := by
  intro i s
  obtain ⟨t, h⟩ := exists_executes i s
  obtain ⟨r, htx, hfid, hack, hlength⟩ := h.reply
  refine ⟨t, r, h.exec_eq, htx, hfid, hack, ?_, h.seq_eq, h.rx_eq, h.script_eq, h.homeIn_eq, h.portIn_eq⟩
  rw [hlength]
  cases i <;> rfl

/-- Settles O14: the cases that do not answer OK are replies alone, once the invariant has undone the revert. -/
theorem errorsChangeNothing : Obligations.ErrorsChangeNothing := by
  intro i s t r hinv h htx hst
  obtain ⟨p, hok⟩ | ⟨st, rfl⟩ := (exec_next.1 h).ok_or_eq_reply hinv
  · obtain rfl : r = ⟨i.fid, .ok, p⟩ := by simpa [htx] using hok
    exact absurd rfl hst
  · rw [← htx]
    rfl

/-! ## The results of the run-class commands -/

section
variable (s : State) (a : Axis) (c : Channel)

/-- The state after a command that armed a session in mode HOME, register by register. -/
theorem homed_home_eq : s.homed a .home c =
    { s.setChan a c with
      board := .pumpRunning, pollArmed := true, sessAxis := a, sessMode := .home,
      pollIn := Config.pollInterval } := rfl

/-- The same in mode PORT, where `prevPort` is seeded from the port sensor. -/
theorem homed_port_eq : s.homed a .port c =
    { s.setChan a c with
      board := .pumpRunning, pollArmed := true, sessAxis := a, sessMode := .port, prevPort := s.portIn,
      pollIn := Config.pollInterval } := by
  simp [State.homed, sessionArm, State.samplePort]

end

/-- Settles O17: the three cases of `Executes` for the command, and the two of `Channel.run`. -/
theorem runStepperResult : Obligations.RunStepperResult := by
  refine ⟨fun w => ⟨rfl, (Laws.AdmittedFrame.runStepper w 0).2⟩, fun w s => ⟨fun hw => ?_, fun a hw => ?_⟩⟩
  · exact exec_invalidAxis s (i := .runStepper w) rfl ((axisOf_eq_none w).2 hw) nofun
  refine ⟨fun hc => exec_runStepper_unconfigured hw hc, fun hc hm => ?_, fun hc hm => ?_⟩
  · rw [(Executes.run hw hc).exec_eq, Channel.run_of_running _ hm, setChan_chan]
    rfl
  · rw [(Executes.run hw hc).exec_eq, Channel.run_of_idle _ hm]
    simp [State.reply]

/-- Settles O19: at home, unconfigured, and the two cases of `Channel.run` with the direction reversed. -/
theorem returnHomeResult : Obligations.ReturnHomeResult := by
  refine ⟨fun w => ⟨rfl, (Laws.AdmittedFrame.returnHome w 0).2⟩, fun w s => ⟨fun hw => ?_, fun a hw => ?_⟩⟩
  · exact exec_invalidAxis s (i := .returnHome w) rfl ((axisOf_eq_none w).2 hw) nofun
  refine ⟨fun hinv hc => (hinv.chan a).dir_eq_forward hc, fun hh hp => ?_, fun haway => ?_⟩
  · exact (Executes.atHome hw (by rw [hh, hp]; rfl)).exec_eq
  have hi : HomingCommand s a (.returnHome w) w .home .reverse .forward := .returnHome (atHome_eq_false.2 haway)
  refine ⟨fun hc => ?_, fun hc hm => ?_, fun hc hm => ?_⟩
  · rw [hi.exec_unconfigured hw hc, State.setDir, reply_setChan, Instr.fid]
  · rw [hi.exec_configured hw hc, Channel.run_of_running { s.chan a with dir := .reverse } hm, homed_home_eq]
    simp [State.reply, Instr.fid]
  · rw [hi.exec_configured hw hc, Channel.run_of_idle { s.chan a with dir := .reverse } hm, homed_home_eq]
    simp [State.reply, Instr.fid]

/-- Settles O20: unconfigured, and the two cases of `Channel.run` with the direction as it was. -/
theorem runToNextResult : Obligations.RunToNextResult := by
  refine ⟨fun w => ⟨rfl, (Laws.AdmittedFrame.runToNext w 0).2⟩, fun w s => ⟨fun hw => ?_, fun a hw => ?_⟩⟩
  · exact exec_invalidAxis s (i := .runToNext w) rfl ((axisOf_eq_none w).2 hw) nofun
  have hi : HomingCommand s a (.runToNext w) w .port (s.chan a).dir (s.chan a).dir := .runToNext
  refine ⟨fun hinv hm => ?_, fun hc => exec_runToNext_unconfigured hw hc, fun hc hm => ?_, fun hc hm => ?_⟩
  · obtain ⟨-, hforward, -⟩ := hinv.chan a
    exact hforward hm
  · rw [hi.exec_configured hw hc, Channel.run_of_running _ hm, homed_port_eq, setChan_chan]
    rfl
  · rw [hi.exec_configured hw hc, Channel.run_of_idle _ hm, homed_port_eq]
    simp [State.reply, Instr.fid]

/-- Settles O21: unconfigured, and the two cases of `Channel.run` with the direction reversed. -/
theorem runToPreviousResult : Obligations.RunToPreviousResult := by
  refine ⟨fun w => ⟨rfl, (Laws.AdmittedFrame.runToPrevious w 0).2⟩,
    fun w s => ⟨fun hw => ?_, fun a hw => ?_⟩⟩
  · exact exec_invalidAxis s (i := .runToPrevious w) rfl ((axisOf_eq_none w).2 hw) nofun
  have hi : HomingCommand s a (.runToPrevious w) w .port .reverse .forward := .runToPrevious
  refine ⟨fun hc => ?_, fun hc hm => ?_, fun hc hm => ?_⟩
  · rw [hi.exec_unconfigured hw hc, State.setDir, reply_setChan, Instr.fid]
  · rw [hi.exec_configured hw hc, Channel.run_of_running { s.chan a with dir := .reverse } hm, homed_port_eq]
    simp [State.reply, Instr.fid]
  · rw [hi.exec_configured hw hc, Channel.run_of_idle { s.chan a with dir := .reverse } hm, homed_port_eq]
    simp [State.reply, Instr.fid]

/-! ## Frames -/

/-- `ExecutesOn s b i c`: command `i` in state `s` leaves the registers `c` in axis `b` (R30): those it had, or
what the command does to the axis its operand names. -/
inductive ExecutesOn (s : State) (b : Axis) : Instr → Channel → Prop
  | untouched {i : Instr} : ExecutesOn s b i (s.chan b)
  | configure {w p : Word} (hp : validPeriod p = true) (hw : w.toNat = b.index) :
      ExecutesOn s b (.setConfig w p) { s.chan b with period := p, configured := true }
  | stop {w : Word} (hw : w.toNat = b.index) : ExecutesOn s b (.stopStepper w) (s.chan b).stopped
  | run {w : Word} (hw : w.toNat = b.index) (hc : (s.chan b).configured = true) :
      ExecutesOn s b (.runStepper w) (s.chan b).run
  | homing {i : Instr} {w : Word} {m : HomingMode} {d d' : Direction} (hi : HomingCommand s b i w m d d')
      (hw : w.toNat = b.index) (hc : (s.chan b).configured = true) :
      ExecutesOn s b i { s.chan b with dir := d }.run
  | homingUnconfigured {i : Instr} {w : Word} {m : HomingMode} {d d' : Direction}
      (hi : HomingCommand s b i w m d d') (hw : w.toNat = b.index) (hc : (s.chan b).configured = false) :
      ExecutesOn s b i { s.chan b with dir := d' }

/-- A command writes no channel but the one its operand names. -/
theorem Executes.on {s t : State} {i : Instr} (h : Executes s i t) (b : Axis) : ExecutesOn s b i (t.chan b) := by
  have hsame : ∀ j, ExecutesOn s b j (s.chan b) := fun _ => .untouched
  cases h with
  | invalidAxis hi hw hp => simpa using hsame i
  | invalidPeriod hp => simpa using hsame _
  | @configure w p a hp hw =>
    by_cases hb : b = a
    · subst hb; simpa using ExecutesOn.configure hp hw
    · simpa [chan_setChan_ne, hb] using hsame _
  | status hw hf => simpa using hsame _
  | sysInfo => simpa using hsame _
  | @stop w a hw =>
    by_cases hb : b = a
    · subst hb; simpa using ExecutesOn.stop hw
    · simpa [chan_setChan_ne, hb] using hsame _
  | @run w a hw hc =>
    by_cases hb : b = a
    · subst hb; simpa using ExecutesOn.run hw hc
    · simpa [chan_setChan_ne, hb] using hsame _
  | runUnconfigured hw hc => simpa using hsame _
  | atHome hw hhome => simpa using hsame _
  | @homing i w a m d d' hi hw hc =>
    by_cases hb : b = a
    · subst hb; simpa using ExecutesOn.homing hi hw hc
    · simpa [chan_homed, hb] using hsame _
  | @homingUnconfigured i w a m d d' hi hw hc =>
    by_cases hb : b = a
    · subst hb; simpa using ExecutesOn.homingUnconfigured hi hw hc
    · simpa [chan_setDir_ne, hb] using hsame _

theorem HomingCommand.axisField_eq {s : State} {i : Instr} {a : Axis} {w : Word} {m : HomingMode}
    {d d' : Direction} (hi : HomingCommand s a i w m d d') : i.axisField = some w := by
  cases hi <;> rfl

/-- An axis whose registers a command writes is the one its operand names. -/
theorem ExecutesOn.eq_or_named {s : State} {b : Axis} {i : Instr} {c : Channel} (h : ExecutesOn s b i c) :
    c = s.chan b ∨ ∃ w, i.axisField = some w ∧ w.toNat = b.index := by
  cases h with
  | untouched => exact .inl rfl
  | configure hp hw => exact .inr ⟨_, rfl, hw⟩
  | stop hw => exact .inr ⟨_, rfl, hw⟩
  | run hw hc => exact .inr ⟨_, rfl, hw⟩
  | homing hi hw hc => exact .inr ⟨_, hi.axisField_eq, hw⟩
  | homingUnconfigured hi hw hc => exact .inr ⟨_, hi.axisField_eq, hw⟩

/-- Settles O28: what a command does to one axis, case by case. -/
theorem commandFrameOfAxes : Obligations.CommandFrameOfAxes := by
  intro i s t b h
  have hon := (exec_next.1 h).on b
  generalize t.chan b = c at hon
  refine ⟨?_, ?_, ?_, ?_, ?_⟩
  · intro hrun hstop hhome hnext hprevious
    cases hon with
    | untouched => exact ⟨rfl, rfl⟩
    | configure hp hw => exact ⟨rfl, rfl⟩
    | stop hw => exact absurd rfl (hstop _)
    | run hw hc => exact absurd rfl (hrun _)
    | homing hi hw hc => cases hi <;> simp_all
    | homingUnconfigured hi hw hc => exact ⟨rfl, rfl⟩
  · intro hstop
    cases hon with
    | stop hw => exact absurd rfl (hstop _)
    | _ => simp
  · intro hstop hhome hprevious
    cases hon with
    | stop hw => exact absurd rfl (hstop _)
    | homing hi hw hc => cases hi <;> simp_all
    | homingUnconfigured hi hw hc => cases hi <;> simp_all
    | _ => simp
  · intro hconfig
    cases hon with
    | configure hp hw => exact absurd rfl (hconfig _ _)
    | stop hw => exact ⟨rfl, rfl⟩
    | _ => simp
  · intro w p hw hi
    obtain hsame | ⟨v, hv, hvb⟩ := hon.eq_or_named
    · exact hsame
    · have hfield : i.axisField = some w ∨ i.axisField = none := by
        simp only [List.mem_cons, List.not_mem_nil, or_false] at hi
        obtain rfl | rfl | rfl | rfl | rfl | rfl | rfl | rfl := hi <;> simp [Instr.axisField]
      obtain rfl : v = w := by simpa [hv] using hfield
      exact absurd hvb hw

/-- Settles O29: each command writes the registers of its own row of R30. -/
theorem commandFrameOfBlock : Obligations.CommandFrameOfBlock := by
  intro i s t h
  have hx := exec_next.1 h
  refine ⟨hx.seq_eq, ?_, ?_, ?_⟩
  · intro hrun hstop hhome hnext hprevious
    cases hx with
    | stop hw => exact absurd rfl (hstop _)
    | run hw hc => exact absurd rfl (hrun _)
    | homing hi hw hc => cases hi <;> simp_all
    | _ => simp
  · intro hhome hnext hprevious
    cases hx with
    | homing hi hw hc => cases hi <;> simp_all
    | _ => simp
  · intro hnext hprevious
    cases hx with
    | homing hi hw hc => cases hi <;> simp_all
    | _ => simp

/-- Settles O25: neither command has a case that writes more than the reply and the count of draws. -/
theorem readingChangesNothing : Obligations.ReadingChangesNothing := by
  rintro i s t hi h
  have hx := exec_next.1 h
  obtain ⟨w, rfl⟩ | rfl := hi
  · cases hx with
    | invalidAxis hi hw hp => rfl
    | status hw hf => rfl
    | homing hi => cases hi
    | homingUnconfigured hi => cases hi
  · cases hx with
    | invalidAxis hi hw hp => rfl
    | sysInfo => rfl
    | homing hi => cases hi
    | homingUnconfigured hi => cases hi

/-- Settles O12: on an open connection the step receives the frame and dispatches the command it holds. -/
theorem stepRunsTheDecodedCommand : Obligations.StepRunsTheDecodedCommand := by
  intro s dt h p rest i tail hseq hscript hdecode
  rw [step_cons s _ rest hscript]
  simp [perform, receiveCommand, dispatchFrame, hseq, hdecode]

end Sys2Proof.Machine
end

section
/-! PROOFS. The sequencer, the polls, and the steps by which an axis's registers can change. -/

namespace Sys2Proof.Machine

/-! ## The sequencer events, the client's bytes, and the block alone -/

/-- Settles O42: each event is enabled in one state of `seq`, and refused by the reason that names it. -/
theorem sequencerEvents : Obligations.SequencerEvents := by
  intro s e rest hs
  rw [step_cons s e rest hs]
  refine ⟨fun he => ?_, fun he => ?_, fun he => ?_⟩ <;> rw [he]
  · refine ⟨fun hq => (doListen_next _ _).2 ⟨hq, rfl⟩, fun hq => ?_⟩
    cases hseq : s.seq <;> simp_all [perform, doListen]
  · refine ⟨fun hq => (doAccept_next _ _).2 ⟨hq, rfl⟩, fun hq => ?_⟩
    cases hseq : s.seq <;> simp_all [perform, doAccept]
  · refine ⟨fun hq => (doDisconnect_next _ _).2 ⟨hq, rfl⟩, fun hq => ?_⟩
    cases hseq : s.seq <;> simp_all [perform, doDisconnect]

/-- Settles O59: `send` is enabled on an open connection alone. -/
theorem sendResult : Obligations.SendResult := by
  intro s e rest bytes hs he
  rw [step_cons s e rest hs, he]
  refine ⟨fun hq => (doSend_next _ _ _).2 ⟨hq, rfl⟩, fun hq => ?_⟩
  cases hseq : s.seq <;> simp_all [perform, doSend]

/-- Settles O49: with an empty script the step is the block's own, which goes by `seq`. -/
theorem resetMachineListensAndWaits : Obligations.ResetMachineListensAndWaits := by
  refine ⟨fun s hs => ?_, _, rfl, rfl, rfl⟩
  rw [step_nil s hs]
  refine ⟨fun hq => ?_, fun hq => ?_⟩
  · simp [idleStep, hq, doListen]
  · cases hseq : s.seq <;> simp_all [idleStep]

/-- Settles O43: only the four events of the table, and the block alone, write `seq`. -/
theorem sequencerTransitions : Obligations.SequencerTransitions := by
  intro s t h hne
  obtain ⟨hs, hq, rfl⟩ | ⟨hs, hq, rfl⟩ | ⟨e, rest, hs, hp⟩ := step_next_cases h
  · exact .inl ⟨hs, hq, rfl⟩
  · exact absurd rfl hne
  · refine .inr ⟨e, rest, hs, ?_⟩
    replace hp := perform_next.1 hp
    generalize e.event = ev at hp
    cases hp with
    | listen hq => exact .inl ⟨rfl, hq, rfl⟩
    | accept hq => exact .inr (.inl ⟨rfl, hq, rfl⟩)
    | disconnect hq => exact .inr (.inr (.inl ⟨rfl, hq, rfl⟩))
    | command hq hd hx => exact absurd hx.seq_eq hne
    | reset => exact .inr (.inr (.inr ⟨rfl, rfl⟩))
    | _ => simp at hne

/-! ## Polls -/

/-- Settles O33: the first two cases of a poll. -/
theorem pollOfStoppedTarget : Obligations.PollOfStoppedTarget := by
  intro s e rest hs he
  refine ⟨fun ha => ?_, fun ha hm => ?_⟩
  · rw [step_cons s e rest hs, he]
    simp [perform, doPoll, ha]
  · rw [step_next hs, he]
    exact .pollStopped ha (by simpa [chan_enter] using hm)

section
variable {s : State}

theorem detect_home_edge (hmode : s.sessMode = .home) :
    (detect s).1 = true ↔ s.homeIn = .low ∧ s.portIn = .low := by
  simp [detect_home s hmode, atHome]

theorem detect_port_edge (hmode : s.sessMode = .port) :
    (detect s).1 = true ↔ s.prevPort = .high ∧ s.portIn = .low := by
  simp [detect_port s hmode, portEdge]

/-- What a poll leaves in `prevPort`: the sample in mode PORT only (R72, R73). -/
theorem detect_prevPort : (detect s).2 = if s.sessMode = .port then s.portIn else s.prevPort := by
  cases hmode : s.sessMode
  · simp [detect_home s hmode]
  · simp [detect_port s hmode]

theorem detect_edge (hedge : s.sessMode = .home ∧ s.homeIn = .low ∧ s.portIn = .low ∨
    s.sessMode = .port ∧ s.prevPort = .high ∧ s.portIn = .low) : (detect s).1 = true := by
  obtain ⟨hmode, hlevels⟩ | ⟨hmode, hlevels⟩ := hedge
  · exact (detect_home_edge hmode).2 hlevels
  · exact (detect_port_edge hmode).2 hlevels

end

/-- Settles O34: without an edge the poll writes what the detection leaves in `prevPort`, and its timer. -/
theorem pollWithoutEdge : Obligations.PollWithoutEdge := by
  intro s e rest hs he ha hm
  rw [step_cons s e rest hs, he]
  have hquiet (hd : (detect (s.enter e rest)).1 = false) :=
    perform_next.2 (Performs.pollQuiet (s := s.enter e rest) ha (by simpa [chan_enter] using hm) hd)
  refine ⟨fun hmode hlevel => ?_, fun hmode hlevel => ?_⟩
  · have hd : (detect (s.enter e rest)).1 = false := by
      rw [← Bool.not_eq_true, detect_home_edge (s := s.enter e rest) hmode]
      rintro ⟨hh, hp⟩
      simp_all
    simpa [detect_prevPort, hmode] using hquiet hd
  · have hd : (detect (s.enter e rest)).1 = false := by
      rw [← Bool.not_eq_true, detect_port_edge (s := s.enter e rest) hmode]
      rintro ⟨hv, hp⟩
      simp_all
    simpa [detect_prevPort, hmode] using hquiet hd

/-- The board rule after axis `a` was left idle: IDLE exactly when no other axis runs (R74, R82). -/
theorem boardIdleIfAllIdle_setChan_board (s : State) (a : Axis) (c : Channel) (h : c.motion = .idle) :
    ((∀ b, b ≠ a → (s.chan b).motion = .idle) → (boardIdleIfAllIdle (s.setChan a c)).board = .idle) ∧
      ((∃ b, b ≠ a ∧ (s.chan b).motion = .running) →
        (boardIdleIfAllIdle (s.setChan a c)).board = s.board) := by
  have hall := allIdle_setChan_idle s a c h
  rw [boardIdleIfAllIdle_board, setChan_board]
  refine ⟨fun hidle => if_pos (hall.2 hidle), ?_⟩
  rintro ⟨b, hb, hrunning⟩
  exact if_neg fun hidle => by simp [hall.1 hidle b hb] at hrunning

/-- Settles O35: the edge action is one channel write and the board rule, which looks at the other axes. -/
theorem pollEdgeAction : Obligations.PollEdgeAction := by
  rintro s e rest a hs he ha rfl hm hedge
  have hd : (detect (s.enter e rest)).1 = true := detect_edge (by simpa using hedge)
  have hp := Performs.pollEdge (s := s.enter e rest) ha (by simpa [chan_enter] using hm) hd
  refine ⟨_, (step_next hs).2 (he ▸ hp), by simp, by simp [Channel.halted], by simp [Channel.halted],
    by simp [Channel.halted], by simp [Channel.halted, chan_enter], by simp [Channel.halted, chan_enter],
    by simp [Channel.halted, chan_enter], fun b hb => ?_, fun hidle => ?_, fun hrun => ?_, ?_, by simp, by simp,
    by simp, by simp, by simp⟩
  · simp [chan_setChan_ne, hb]
  · exact (boardIdleIfAllIdle_setChan_board _ _ _ rfl).1 (by simpa [chan_enter] using hidle)
  · exact (boardIdleIfAllIdle_setChan_board _ _ _ rfl).2 (by simpa [chan_enter] using hrun)
  · rw [boardIdleIfAllIdle_prevPort, setChan_prevPort, detect_prevPort]
    obtain ⟨hmode, -, -⟩ | ⟨hmode, -, hport⟩ := hedge
    · simp [hmode]
    · simp [hmode, hport]

/-! ## What a transition leaves of one axis -/

/-- `PerformsOn s b e c`: transition `e` in state `s` leaves the registers `c` in axis `b`. -/
inductive PerformsOn (s : State) (b : Axis) : Event → Channel → Prop
  | untouched {e : Event} (he : e ≠ .tick b) : PerformsOn s b e (s.chan b)
  | command {i : Instr} {tail : List Byte} {c : Channel} (hq : s.seq = .opened)
      (hd : decode s.rx = .command i tail) (hx : ExecutesOn { s with rx := tail } b i c) :
      PerformsOn s b .command c
  | tick (hm : (s.chan b).motion = .running) : PerformsOn s b (.tick b) (s.chan b).tick
  | edge (ha : s.pollArmed = true) (hb : s.sessAxis = b) (hm : (s.chan b).motion = .running)
      (hd : (detect s).1 = true) : PerformsOn s b .poll (s.chan b).halted
  | reset : PerformsOn s b .reset Channel.reset

/-- A transition writes an axis by a command, its own tick, an edge of a poll on it, or a reset (R30). -/
theorem Performs.on {s t : State} {e : Event} (h : Performs s e t) (b : Axis) : PerformsOn s b e (t.chan b) := by
  have hsame {ev : Event} {c : Channel} (hc : c = s.chan b) (hev : ev ≠ .tick b) : PerformsOn s b ev c :=
    hc ▸ .untouched hev
  cases h with
  | command hq hd hx => exact .command hq hd (hx.on b)
  | @tick a hm =>
    by_cases hb : b = a
    · subst hb; simpa using PerformsOn.tick hm
    · exact hsame (chan_setChan_ne s a b _ hb) (by simpa using Ne.symm hb)
  | pollEdge ha hm hd =>
    by_cases hb : s.sessAxis = b
    · subst hb; simpa using PerformsOn.edge ha rfl hm hd
    · exact hsame (by simp [chan_setChan_ne, Ne.symm hb]) nofun
  | reset => simpa using PerformsOn.reset (s := s) (b := b)
  | _ => exact hsame (by simp) nofun

/-- The registers that a running axis which runs on keeps through a command (R17, R19). -/
theorem ExecutesOn.running {s : State} {b : Axis} {i : Instr} {c : Channel} (h : ExecutesOn s b i c)
    (hm : (s.chan b).motion = .running) (hc : c.motion = .running) :
    c.halfLatch = (s.chan b).halfLatch ∧ c.tickIn = (s.chan b).tickIn ∧ c.pin = (s.chan b).pin ∧
      c.steps = (s.chan b).steps := by
  cases h with
  | untouched => exact ⟨rfl, rfl, rfl, rfl⟩
  | configure hp hw => exact ⟨rfl, rfl, rfl, rfl⟩
  | stop hw => simp [Channel.stopped] at hc
  | run hw hcfg => rw [Channel.run_of_running _ hm]; exact ⟨rfl, rfl, rfl, rfl⟩
  | @homing i w m d d' hi hw hcfg =>
    rw [Channel.run_of_running { s.chan b with dir := d } hm]
    exact ⟨rfl, rfl, rfl, rfl⟩
  | homingUnconfigured hi hw hcfg => exact ⟨rfl, rfl, rfl, rfl⟩

/-- The registers that a running axis which runs on keeps through a transition: its own tick apart, all that
belong to its timer and its count. -/
theorem PerformsOn.running {s : State} {b : Axis} {e : Event} {c : Channel} (h : PerformsOn s b e c)
    (hm : (s.chan b).motion = .running) (hc : c.motion = .running) :
    (e = .tick b ∧ c = (s.chan b).tick) ∨
    (e ≠ .tick b ∧ c.halfLatch = (s.chan b).halfLatch ∧ c.tickIn = (s.chan b).tickIn ∧
      c.pin = (s.chan b).pin ∧ c.steps = (s.chan b).steps) := by
  cases h with
  | untouched he => exact .inr ⟨he, rfl, rfl, rfl, rfl⟩
  | command hq hd hx => exact .inr ⟨nofun, by simpa using hx.running (by simpa using hm) hc⟩
  | tick => exact .inl ⟨rfl, rfl⟩
  | edge => simp [Channel.halted] at hc
  | reset => simp [Channel.reset] at hc

/-- Settles O32: a tick leaves the latch, and everything else that leaves the axis running leaves all three. -/
theorem onlyTicksCountWhileRunning : Obligations.OnlyTicksCountWhileRunning := by
  intro s t e rest a hs h hm ht
  obtain ⟨he, hc⟩ | ⟨-, hlatch, -, hpin, hsteps⟩ :=
    (((step_next hs).1 h).on a).running (by simpa [chan_enter] using hm) ht
  · refine ⟨?_, fun hne => absurd he hne⟩
    rw [hc, chan_enter]
    simp
  · rw [hlatch, hpin, hsteps, chan_enter]
    simp

/-- Settles O47: of the cases that can change an axis only SET_CONFIG writes its period or its flag. -/
theorem configurationSurvives : Obligations.ConfigurationSurvives := by
  intro s t e rest a hs h hreset
  have hon := ((step_next hs).1 h).on a
  generalize t.chan a = c at hon
  generalize e.event = ev at hon hreset
  have hkept (hperiod : c.period = (s.chan a).period) (hflag : c.configured = (s.chan a).configured) :
      ((s.chan a).configured = true → c.configured = true) ∧
      (c.period ≠ (s.chan a).period ∨ c.configured ≠ (s.chan a).configured →
        ev = .command ∧ ∃ (w : Word) (tail : List Byte),
          decode s.rx = .command (.setConfig w c.period) tail ∧ w.toNat = a.index ∧
          validPeriod c.period = true ∧ c.configured = true) := by
    simp [hperiod, hflag]
  cases hon with
  | untouched he => exact hkept (by simp [chan_enter]) (by simp [chan_enter])
  | command hq hd hx =>
    cases hx with
    | configure hp hw => exact ⟨fun _ => rfl, fun _ => ⟨rfl, _, _, hd, hw, hp, rfl⟩⟩
    | _ => exact hkept (by simp [chan_enter, Channel.stopped]) (by simp [chan_enter, Channel.stopped])
  | reset => exact absurd rfl hreset
  | _ => exact hkept (by simp [chan_enter, Channel.halted]) (by simp [chan_enter, Channel.halted])

/-! ## The count of a running axis -/

/-- `n` ticks after a start with the line low and the count 0, the line has the parity of `n`, and the count is
half of it, rounded up (R39 (c), R65). -/
def Channel.Counted (c : Channel) (n : Nat) : Prop :=
  c.pin = (if n % 2 = 1 then .high else .low) ∧ c.steps = BitVec.ofNat 32 ((n + 1) / 2)

theorem Channel.counted_zero {c : Channel} (hpin : c.pin = .low) (hsteps : c.steps = 0) : c.Counted 0 :=
  ⟨hpin, hsteps⟩

theorem Channel.Counted.toNat_steps {c : Channel} {n : Nat} (h : c.Counted n) :
    c.steps.toNat = (n + 1) / 2 % 2 ^ 32 := by
  rw [h.2, BitVec.toNat_ofNat]

theorem Channel.Counted.congr {c c' : Channel} {n : Nat} (h : c.Counted n) (hpin : c'.pin = c.pin)
    (hsteps : c'.steps = c.steps) : c'.Counted n := by
  obtain ⟨hp, hs⟩ := h
  exact ⟨hpin.trans hp, hsteps.trans hs⟩

/-- A tick makes it `n + 1`: an even line rises and counts, an odd one falls. -/
theorem Channel.Counted.tick {c : Channel} {n : Nat} (h : c.Counted n) : c.tick.Counted (n + 1) := by
  obtain ⟨hpin, hsteps⟩ := h
  obtain hn | hn := Nat.mod_two_eq_zero_or_one n
  · rw [if_neg (by omega)] at hpin
    rw [Channel.tick_low c hpin]
    refine ⟨(if_pos (by omega)).symm, ?_⟩
    have hhalf : (n + 1 + 1) / 2 = (n + 1) / 2 + 1 := by omega
    simp [hsteps, hhalf, BitVec.ofNat_add]
  · rw [if_pos hn] at hpin
    rw [Channel.tick_high c hpin]
    refine ⟨(if_neg (by omega)).symm, ?_⟩
    have hhalf : (n + 1 + 1) / 2 = (n + 1) / 2 := by omega
    simp [hsteps, hhalf]

/-- A step with a stimulus takes it off the script. -/
theorem step_script {s t : State} {e : Stimulus} {rest : List Stimulus} (hs : s.script = e :: rest)
    (h : step s = .next t) : t.script = rest := by
  have hp := (step_next hs).1 h
  generalize e.event = ev at hp
  cases hp with
  | command hq hd hx => simpa using hx.script_eq
  | _ => simp

/-- One step of a running axis that runs on counts its own tick, and nothing else. -/
theorem Channel.Counted.step {s t : State} {e : Stimulus} {rest : List Stimulus} {a : Axis} {n : Nat}
    (h : (s.chan a).Counted n) (hs : s.script = e :: rest) (hstep : Machine.step s = .next t)
    (hm : (s.chan a).motion = .running) (ht : (t.chan a).motion = .running) :
    (t.chan a).Counted ((if e.event = .tick a then 1 else 0) + n) := by
  obtain ⟨he, hc⟩ | ⟨he, -, -, hpin, hsteps⟩ :=
    (((step_next hs).1 hstep).on a).running (by simpa [chan_enter] using hm) ht
  · rw [if_pos he, hc, chan_enter, Channel.tick_advance, Nat.add_comm]
    exact h.tick
  · rw [if_neg he, Nat.zero_add]
    exact h.congr (by simpa [chan_enter] using hpin) (by simpa [chan_enter] using hsteps)

/-- A run of `k + 1` steps is a step and a run of `k` (Host/Core.lean). -/
theorem run_succ {k : Nat} {s u : State} (h : step s = .next u) :
    Host.Core.run Sys2Proof.core (k + 1) s = Host.Core.run Sys2Proof.core k u := by
  simp only [Host.Core.run, Sys2Proof.core, h]

/-- A run of `k + 1` steps that completes has completed its first. -/
theorem exists_step_of_run_succ {k : Nat} {s t : State}
    (h : Host.Core.run Sys2Proof.core (k + 1) s = .next t) : ∃ u, step s = .next u := by
  cases hu : step s with
  | next u => exact ⟨u, rfl⟩
  | fault r => exact nomatch r
  | refused r => simp [Host.Core.run, Sys2Proof.core, hu] at h

/-- Along a script through which the axis keeps running, its own ticks are counted. -/
theorem counted_of_run (rest : List Stimulus) (a : Axis) (es : List Stimulus) : ∀ {s t : State} {n : Nat},
    s.script = es ++ rest → Host.Core.run Sys2Proof.core es.length s = .next t →
    (∀ (k : Nat) (u : State), k ≤ es.length → Host.Core.run Sys2Proof.core k s = .next u →
      (u.chan a).motion = .running) →
    (s.chan a).Counted n → t.script = rest ∧ (t.chan a).Counted (tickCount a es + n) := by
  induction es with
  | nil =>
    intro s t n hs hrun hm h
    obtain rfl : s = t := Host.Outcome.next.inj hrun
    exact ⟨hs, by simpa [tickCount] using h⟩
  | cons e es ih =>
    intro s t n hs hrun hm h
    obtain ⟨u, hu⟩ := exists_step_of_run_succ hrun
    have hsm : (s.chan a).motion = .running := hm 0 s (Nat.zero_le _) rfl
    have hum : (u.chan a).motion = .running := hm 1 u (by simp) (run_succ hu)
    obtain ⟨hscript, hcounted⟩ := ih (step_script hs hu) (run_succ hu ▸ hrun)
      (fun k v hk hv => hm (k + 1) v (by simpa using hk) ((run_succ hu).trans hv)) (h.step hs hu hsm hum)
    exact ⟨hscript, by rwa [tickCount, Nat.add_assoc, Nat.add_left_comm]⟩

/-- A tick of a running axis completes; it leaves the board and every motion, and counts for its own axis. -/
theorem exists_step_tick {s : State} {e : Stimulus} {rest : List Stimulus} {b : Axis} {n : Nat} (a : Axis)
    (hs : s.script = e :: rest) (he : e.event = .tick b) (hm : (s.chan b).motion = .running)
    (h : (s.chan a).Counted n) :
    ∃ u, step s = .next u ∧ u.script = rest ∧ u.board = s.board ∧
      (∀ c, (u.chan c).motion = (s.chan c).motion) ∧
      (u.chan a).Counted ((if e.event = .tick a then 1 else 0) + n) := by
  refine ⟨_, step_tick_running hs he hm, by simp, by simp, fun c => ?_, ?_⟩
  · by_cases hc : c = b
    · simp [hc]
    · simp [chan_setChan_ne, hc, chan_enter]
  · by_cases ha : a = b
    · subst ha
      rw [if_pos he, chan_setChan_same, Nat.add_comm]
      exact h.tick
    · have hne : e.event ≠ .tick a := by simpa [he] using Ne.symm ha
      rw [if_neg hne, Nat.zero_add, chan_setChan_ne _ _ _ _ ha, chan_enter]
      exact h.congr (by simp) (by simp)

/-- A script of ticks of running axes completes, leaves the board, and counts the ticks of every axis. -/
theorem exists_run_of_ticks (rest : List Stimulus) (a : Axis) (es : List Stimulus) : ∀ {s : State} {n : Nat},
    s.script = es ++ rest → (∀ e ∈ es, ∃ b : Axis, e.event = .tick b ∧ (s.chan b).motion = .running) →
    (s.chan a).Counted n →
    ∃ t : State, Host.Core.run Sys2Proof.core es.length s = .next t ∧ t.script = rest ∧ t.board = s.board ∧
      (t.chan a).Counted (tickCount a es + n) := by
  induction es with
  | nil => exact fun hs _ h => ⟨_, rfl, hs, rfl, by simpa [tickCount] using h⟩
  | cons e es ih =>
    intro s n hs hticks h
    obtain ⟨b, he, hm⟩ := hticks e (by simp)
    obtain ⟨u, hu, hscript, hboard, hmotion, hcounted⟩ := exists_step_tick a hs he hm h
    have hticks' : ∀ e ∈ es, ∃ b : Axis, e.event = .tick b ∧ (u.chan b).motion = .running := fun e' he' => by
      simpa [hmotion] using hticks e' (List.mem_cons_of_mem _ he')
    obtain ⟨t, hrun, htscript, htboard, ht⟩ := ih hscript hticks' hcounted
    exact ⟨t, (run_succ hu).trans hrun, htscript, htboard.trans hboard,
      by rwa [tickCount, Nat.add_assoc, Nat.add_left_comm]⟩

/-- Settles O31: both parts are inductions over the script that carry the count of the ticks so far. -/
theorem tickCountLaw : Obligations.TickCountLaw := by
  refine ⟨fun es rest s t a hs hrun hm hpin hsteps => ?_, fun es rest s a hs hticks hpin hsteps => ?_⟩
  · obtain ⟨hscript, hcounted⟩ :=
      counted_of_run rest a es hs hrun hm (Channel.counted_zero hpin hsteps)
    exact ⟨hscript, hcounted.1, hcounted.toNat_steps⟩
  · obtain ⟨t, hrun, hscript, hboard, hcounted⟩ :=
      exists_run_of_ticks rest a es hs hticks (Channel.counted_zero hpin hsteps)
    exact ⟨t, hrun, hscript, hcounted.1, hcounted.toNat_steps, hboard⟩

end Sys2Proof.Machine
end

section
/-! PROOFS. The session, the board and the enabling conditions: what a transition does to each, said once, and
the obligations read off it. -/

namespace Sys2Proof.Machine

/-! ## The session -/

section
variable {s t : State} {e : Event} {i : Instr}

theorem HomingCommand.eq_or {a : Axis} {w : Word} {m : HomingMode} {d d' : Direction}
    (hi : HomingCommand s a i w m d d') : i = .returnHome w ∧ m = .home ∨
      (i = .runToNext w ∨ i = .runToPrevious w) ∧ m = .port := by
  cases hi with
  | returnHome haway => exact .inl ⟨rfl, rfl⟩
  | runToNext => exact .inr ⟨.inl rfl, rfl⟩
  | runToPrevious => exact .inr ⟨.inr rfl, rfl⟩

/-- The session registers of two states are the same. -/
def State.SameSession (s t : State) : Prop :=
  t.pollArmed = s.pollArmed ∧ t.sessAxis = s.sessAxis ∧ t.sessMode = s.sessMode ∧
    t.prevPort = s.prevPort ∧ t.pollIn = s.pollIn

/-- A command keeps the session, or is a homing-class command answered OK (R40, R69). -/
theorem Executes.session_cases (h : Executes s i t) :
    s.SameSession t ∨ ∃ w a m d d', HomingCommand s a i w m d d' ∧ w.toNat = a.index ∧
      (s.chan a).configured = true ∧
      t = (s.homed a m { s.chan a with dir := d }.run).reply i.fid .ok .ack := by
  cases h with
  | homing hi hw hc => exact .inr ⟨_, _, _, _, _, hi, hw, hc, rfl⟩
  | _ => exact .inl (by simp [State.SameSession])

/-- What a transition does to the session: it keeps it; a poll may end it; a reset ends it; a homing-class
command answered OK arms it (R69, R76). -/
theorem Performs.session_cases (h : Performs s e t) :
    (e ≠ .poll ∧ s.SameSession t) ∨
    (e = .poll ∧ s.pollArmed = true ∧ t.sessAxis = s.sessAxis ∧ t.sessMode = s.sessMode ∧
      (t.pollArmed = true → t.pollIn = Config.pollInterval)) ∨
    (e = .reset ∧ t.pollArmed = false) ∨
    (e = .command ∧ ∃ i tail w a m d d', decode s.rx = .command i tail ∧
      HomingCommand { s with rx := tail } a i w m d d' ∧ w.toNat = a.index ∧ (s.chan a).configured = true ∧
      t = (State.homed { s with rx := tail } a m { s.chan a with dir := d }.run).reply i.fid .ok .ack) := by
  cases h with
  | @command i tail t hq hd hx =>
    obtain hsame | ⟨w, a, m, d, d', hi, hw, hc, ht⟩ := hx.session_cases
    · exact .inl ⟨nofun, hsame⟩
    · exact .inr (.inr (.inr ⟨rfl, i, tail, w, a, m, d, d', hd, hi, hw, by simpa using hc, by simpa using ht⟩))
  | pollStopped ha hm => exact .inr (.inl ⟨rfl, ha, rfl, rfl, nofun⟩)
  | pollEdge ha hm hd => exact .inr (.inl ⟨rfl, ha, by simp, by simp, by simp⟩)
  | pollQuiet ha hm hd => exact .inr (.inl ⟨rfl, ha, rfl, rfl, fun _ => rfl⟩)
  | reset => exact .inr (.inr (.inl ⟨rfl, rfl⟩))
  | _ => exact .inl ⟨nofun, by simp [State.SameSession]⟩

end

/-- Settles O36: of the cases of a transition only the poll's and the reset's clear `pollArmed`, and only the
reset's and the homing-class command's write the target or the mode. -/
theorem sessionEndsOnlyByPollOrReset : Obligations.SessionEndsOnlyByPollOrReset := by
  intro s t e rest hs h ha
  obtain ⟨-, harmed, haxis, hmode, -, -⟩ | ⟨he, -, haxis, hmode, -⟩ | ⟨he, -⟩ |
    ⟨he, i, tail, w, a, m, d, d', hd, hi, hw, -, rfl⟩ := ((step_next hs).1 h).session_cases
  · simp [harmed, haxis, hmode, ha]
  · simp [he, haxis, hmode]
  · simp [he]
  · refine ⟨by simp, fun _ => .inr ⟨he, by simp, w, i, tail, a, hd, ?_, hw, by simp, by simp⟩⟩
    obtain ⟨hi, -⟩ | ⟨hi, -⟩ := hi.eq_or
    · exact .inl hi
    · exact .inr hi

/-- Settles O37: only the last case of a transition sets `pollArmed`. -/
theorem sessionArmedOnlyByHomingCommand : Obligations.SessionArmedOnlyByHomingCommand := by
  intro s t e rest hs h hidle harmed'
  obtain ⟨-, harmed, -⟩ | ⟨-, harmed, -⟩ | ⟨-, harmed⟩ |
    ⟨he, i, tail, w, a, m, d, d', hd, hi, hw, -, rfl⟩ := ((step_next hs).1 h).session_cases
  · simp [harmed, hidle] at harmed'
  · simp [hidle] at harmed
  · simp [harmed] at harmed'
  · refine ⟨he, w, i, tail, a, hd, hw, ?_, by simp, by simp, by simp, by simp, by simp⟩
    obtain ⟨rfl, rfl⟩ | ⟨hnext, rfl⟩ := hi.eq_or
    · exact .inl ⟨rfl, by simp⟩
    · exact .inr ⟨hnext, by simp, by simp⟩

/-! ## The board -/

section
variable (s : State)

/-- `AllIdle()` reads the channels alone. -/
theorem allIdle_congr {s t : State} (h : ∀ a, (t.chan a).motion = (s.chan a).motion) :
    t.allIdle = s.allIdle := by
  rw [Bool.eq_iff_iff, allIdle_iff, allIdle_iff]
  simp [h]

@[simp] theorem allIdle_reply (fid : Word) (st : Status) (p : Payload) :
    (s.reply fid st p).allIdle = s.allIdle := rfl
@[simp] theorem allIdle_boardIdleIfAllIdle : (boardIdleIfAllIdle s).allIdle = s.allIdle :=
  allIdle_congr (by simp)
@[simp] theorem allIdle_enter (e : Stimulus) (rest : List Stimulus) : (s.enter e rest).allIdle = s.allIdle :=
  allIdle_congr (by simp [chan_enter])

/-- After a stop of one axis, if not all are idle then not all were. -/
theorem allIdle_of_setChan_idle {s : State} {a : Axis} {c : Channel} (hc : c.motion = .idle)
    (h : s.allIdle = true) : (s.setChan a c).allIdle = true :=
  (allIdle_setChan_idle s a c hc).2 fun b _ => (allIdle_iff s).1 h b

variable {s} {t : State} {i : Instr} {e : Event}

/-- `Stops s t`: from `s` to `t` some axis may have stopped, and the board rule was applied (R74, R82). -/
def Stops (s t : State) : Prop :=
  t.board = (if t.allIdle then .idle else s.board) ∧ (s.allIdle = true → t.allIdle = true)

/-- What a command does to the board and the motions: nothing; a stop; or a run (R94). -/
theorem Executes.board_cases (h : Executes s i t) :
    (t.board = s.board ∧ t.allIdle = s.allIdle) ∨
    (∃ (w : Word) (a : Axis), i = .stopStepper w ∧ w.toNat = a.index ∧ Stops s t) ∨
    (∃ (w : Word) (a : Axis), (i = .runStepper w ∨ i = .returnHome w ∨ i = .runToNext w ∨ i = .runToPrevious w) ∧
      w.toNat = a.index ∧ (s.chan a).configured = true ∧ (t.chan a).motion = .running ∧
      t.board = .pumpRunning) := by
  cases h with
  | @configure w p a hp hw =>
    refine .inl ⟨by simp, ?_⟩
    rw [allIdle_reply]
    refine allIdle_congr fun b => ?_
    by_cases hb : b = a
    · simp [hb]
    · simp [chan_setChan_ne, hb]
  | stop hw =>
    exact .inr (.inl ⟨_, _, rfl, hw, by simp, by simpa using allIdle_of_setChan_idle rfl⟩)
  | run hw hc => exact .inr (.inr ⟨_, _, .inl rfl, hw, hc, by simp, by simp⟩)
  | homing hi hw hc =>
    refine .inr (.inr ⟨_, _, ?_, hw, hc, by simp, by simp⟩)
    obtain ⟨rfl, -⟩ | ⟨rfl | rfl, -⟩ := hi.eq_or <;> simp
  | @homingUnconfigured i w a m d d' hi hw hc =>
    refine .inl ⟨by simp, ?_⟩
    rw [allIdle_reply]
    refine allIdle_congr fun b => ?_
    by_cases hb : b = a
    · simp [hb]
    · simp [chan_setDir_ne, hb]
  | _ => exact .inl ⟨by simp, rfl⟩

/-- The edge of a poll is such a stop (R74). -/
theorem stops_edge (prev : Level) (pollIn : Time) (a : Axis) :
    Stops s (boardIdleIfAllIdle (State.setChan
      { s with prevPort := prev, pollIn := pollIn, pollArmed := false } a (s.chan a).halted)) :=
  ⟨by simp, by
    rw [allIdle_boardIdleIfAllIdle]
    exact fun h => allIdle_of_setChan_idle (c := (s.chan a).halted) rfl h⟩

theorem allIdle_tick {a : Axis} : (s.setChan a (s.chan a).tick).allIdle = s.allIdle := by
  refine allIdle_congr fun b => ?_
  by_cases hb : b = a
  · simp [hb]
  · simp [chan_setChan_ne, hb]

end

/-- Settles O44: the board changes in the cases of the table, and a stop changes it when all axes are idle. -/
theorem boardIsWrittenOnlyByTheTable : Obligations.BoardIsWrittenOnlyByTheTable := by
  intro s t e rest hs h hne
  have hp := (step_next hs).1 h
  have hstop {u v : State} (hu : Stops u v) (hchange : v.board ≠ u.board) :
      v.allIdle = true ∧ v.board = .idle := by
    obtain ⟨hboard, -⟩ := hu
    cases hall : v.allIdle <;> simp_all
  generalize e.event = ev at hp
  cases hp with
  | listen hq => exact .inl ⟨.inr (.inl rfl), rfl⟩
  | accept hq => exact .inr (.inl ⟨rfl, rfl⟩)
  | disconnect hq => exact .inl ⟨.inr (.inr rfl), rfl⟩
  | @command i tail t hq hd hx =>
    obtain ⟨hboard, -⟩ | ⟨w, a, hi, hw, hu⟩ | ⟨w, a, hi, hw, hc, hm, hboard⟩ := hx.board_cases
    · exact absurd hboard hne
    · exact .inr (.inr (.inr ⟨rfl, i, tail, w, a, hd, hw, .inl ⟨hi, hstop hu hne⟩⟩))
    · exact .inr (.inr (.inr ⟨rfl, i, tail, w, a, hd, hw,
        .inr ⟨hi, by simpa [chan_enter] using hc, hm, hboard⟩⟩))
  | pollEdge ha hm hd =>
    exact .inr (.inr (.inl ⟨rfl, ha, by simp, by simpa [chan_enter] using hm, hstop (stops_edge (s := s.enter e rest) _ _ _) hne⟩))
  | reset => exact .inl ⟨.inl rfl, rfl⟩
  | _ => simp at hne

/-- Settles O46: no case of a transition writes CONNECTED. -/
theorem connectedIsNeverEntered : Obligations.ConnectedIsNeverEntered := by
  intro s t h ht
  have hstop {u v : State} (hu : Stops u v) (hv : v.board = .connected) : u.board = .connected := by
    obtain ⟨hboard, -⟩ := hu
    cases hall : v.allIdle <;> simp_all
  obtain ⟨-, -, rfl⟩ | ⟨-, -, rfl⟩ | ⟨e, rest, hs, hp⟩ := step_next_cases h
  · simp at ht
  · exact ht
  replace hp := perform_next.1 hp
  generalize e.event = ev at hp
  cases hp with
  | command hq hd hx =>
    obtain ⟨hboard, -⟩ | ⟨w, a, -, -, hu⟩ | ⟨w, a, -, -, -, -, hboard⟩ := hx.board_cases
    · simpa [hboard] using ht
    · exact (hstop hu ht :)
    · simp [hboard] at ht
  | pollEdge ha hm hd => exact (hstop (stops_edge (s := s.enter e rest) _ _ _) ht :)
  | reset => exact nomatch ht
  | listen hq | accept hq | disconnect hq => simp at ht
  | _ => simpa using ht

/-! ## The board and the motions -/

section
variable {s t : State} {e : Event}

/-- A stop keeps the property of R94: it leaves the board PUMP_RUNNING only where some axis runs on. -/
theorem Stops.boardTracksMotion (hs : s.BoardTracksMotion) (h : Stops s t) (hq : t.seq = s.seq) :
    t.BoardTracksMotion := by
  obtain ⟨hboard, hidle⟩ := h
  obtain ⟨hiff, hconnected⟩ := hs
  refine ⟨?_, fun hne => hidle (hconnected (hq ▸ hne))⟩
  rw [hboard]
  cases hall : t.allIdle with
  | true => simp
  | false =>
    have : s.allIdle = false := by
      cases h : s.allIdle with
      | false => rfl
      | true => simp [hidle h] at hall
    simp [hiff, this]

/-- A transition other than a DISCONNECT while an axis runs keeps the property of R94. -/
theorem Performs.boardTracksMotion (h : Performs s e t) (hs : s.BoardTracksMotion)
    (hd : e = .disconnect → s.allIdle = true) : t.BoardTracksMotion := by
  have hsame {u : State} (hb : u.board = s.board) (hm : u.allIdle = s.allIdle) (hq : u.seq = s.seq) :
      u.BoardTracksMotion := by
    rw [State.BoardTracksMotion, hb, hm, hq]
    exact hs
  obtain ⟨-, hconnected⟩ := id hs
  cases h with
  | listen hq =>
    have hall : s.allIdle = true := hconnected (by simp [hq])
    exact ⟨⟨nofun, fun h => absurd (hall.symm.trans h) (by decide)⟩, fun _ => hall⟩
  | accept hq =>
    have hall : s.allIdle = true := hconnected (by simp [hq])
    exact ⟨⟨nofun, fun h => absurd (hall.symm.trans h) (by decide)⟩, fun _ => hall⟩
  | disconnect hq =>
    have hall : s.allIdle = true := hd rfl
    exact ⟨⟨nofun, fun h => absurd (hall.symm.trans h) (by decide)⟩, fun _ => hall⟩
  | command hq _ hx =>
    have hseq : t.seq = s.seq := hx.seq_eq
    obtain ⟨hb, hm⟩ | ⟨w, a, -, -, hstop⟩ | ⟨w, a, -, -, -, hm, hb⟩ := hx.board_cases
    · exact hsame hb hm hseq
    · exact Stops.boardTracksMotion hs hstop hseq
    · exact ⟨⟨fun _ => (allIdle_false_iff t).2 ⟨a, hm⟩, fun _ => hb⟩,
        fun hne => absurd (hseq.trans hq) hne⟩
  | tick hm => exact hsame (by simp) allIdle_tick (by simp)
  | pollEdge ha hm _ => exact (stops_edge _ _ _).boardTracksMotion hs (by simp)
  | reset => exact ⟨by simp [State.reset, State.allIdle, Channel.reset], fun _ => rfl⟩
  | _ => exact hsame rfl rfl rfl

end

/-- Settles O45: the empty script's step is a LISTEN or none, and every other is a transition. -/
theorem boardTracksMotionKept : Obligations.BoardTracksMotionKept := by
  intro s t hs hd h
  obtain ⟨-, hq, rfl⟩ | ⟨-, -, rfl⟩ | ⟨e, rest, hscript, hp⟩ := step_next_cases h
  · exact (Performs.listen hq).boardTracksMotion hs nofun
  · exact hs
  · refine (perform_next.1 hp).boardTracksMotion ?_ fun he => ?_
    · simpa [State.BoardTracksMotion] using hs
    · simpa using hd e rest hscript he

end Sys2Proof.Machine
end

section
/-! PROOFS. Which transitions are enabled, the invariant of the block, and the timing layer: a step keeps the
invariant, and a timed step each timer's phase. -/

namespace Sys2Proof

/-- The format a `fid` selects does not depend on the operand fields (R46, R48). -/
theorem instrOf_format (n : Nat) (axis period : Word) :
    (instrOf n axis period).map Instr.format = (instrOf n 0 0).map Instr.format := by
  obtain h | h := Nat.lt_or_ge n 8
  · interval_cases n <;> rfl
  · rw [instrOf_of_eight_le _ _ h, instrOf_of_eight_le _ _ h]

end Sys2Proof

namespace Sys2Proof.Machine

/-! ## Enabling -/

/-- A whole admitted request waits exactly when the decoder finds a command or an unsupported `fid` (R92). -/
theorem requestWaiting_iff (s : State) : s.requestWaiting = true ↔
    (∃ i tail, decode s.rx = .command i tail) ∨ ∃ fid tail, decode s.rx = .unsupported fid tail := by
  cases hcut : cutFrame s.rx with
  | none => simp [State.requestWaiting, hcut, decode, decodeWith]
  | some cut =>
    obtain ⟨f, rest⟩ := cut
    have hdecode : decode s.rx = decodeFrame Config.handlerBound f rest := by
      simp [decode, decodeWith, hcut]
    have hwait : s.requestWaiting = f.wellFormed ((instrOf f.fid.toNat 0 0).map Instr.format) := by
      simp [State.requestWaiting, hcut, Config.handlerBound]
    rw [hdecode, hwait]
    by_cases hc : 12 ≤ f.packetLength.toNat
    · obtain ⟨-, -, -, hpayload⟩ := cutFrame_eq_some hcut
      have hcomplete : f.payloadComplete = true := (Frame.payloadComplete_iff f).2 (by omega)
      rw [← instrOf_format _ (u32At f.payload 0) (u32At f.payload 4), Frame.wellFormed,
        (Frame.coversHeader_iff f).2 hc, hcomplete]
      cases hi : instrOf f.fid.toNat (u32At f.payload 0) (u32At f.payload 4) with
      | none => simp [decodeFrame_unsupported rest hc hi]
      | some i =>
        by_cases hl : f.packetLength.toNat = i.format.length
        · simp [decodeFrame_command rest hc hi hl, (Frame.fitsFormat_iff f i.format).2 hl]
        · simp [decodeFrame_lengthMismatch rest hc hi hl, Frame.fitsFormat_iff, hl]
    · rw [decodeFrame_lengthBelowHeader rest _ (by omega)]
      simp [Frame.wellFormed, Frame.coversHeader_iff, hc]

/-- A transition leads somewhere exactly when it is enabled (R8, R114). -/
theorem exists_performs_iff (s : State) (e : Event) : (∃ t, Performs s e t) ↔ s.enabled e = true := by
  cases e with
  | listen =>
    rw [State.enabled, beq_iff_eq]
    exact ⟨fun ⟨_, h⟩ => by cases h; assumption, fun hq => ⟨_, .listen hq⟩⟩
  | accept =>
    rw [State.enabled, beq_iff_eq]
    exact ⟨fun ⟨_, h⟩ => by cases h; assumption, fun hq => ⟨_, .accept hq⟩⟩
  | disconnect =>
    rw [State.enabled, beq_iff_eq]
    exact ⟨fun ⟨_, h⟩ => by cases h; assumption, fun hq => ⟨_, .disconnect hq⟩⟩
  | send bytes =>
    rw [State.enabled, beq_iff_eq]
    exact ⟨fun ⟨_, h⟩ => by cases h; assumption, fun hq => ⟨_, .send hq⟩⟩
  | command =>
    rw [State.enabled, Bool.and_eq_true, beq_iff_eq, requestWaiting_iff]
    constructor
    · rintro ⟨t, h⟩
      cases h with
      | command hq hd hx => exact ⟨hq, .inl ⟨_, _, hd⟩⟩
      | unsupported hq hd => exact ⟨hq, .inr ⟨_, _, hd⟩⟩
    · rintro ⟨hq, ⟨i, tail, hd⟩ | ⟨fid, tail, hd⟩⟩
      · obtain ⟨t, hx⟩ := exists_executes i { s with rx := tail }
        exact ⟨t, .command hq hd hx⟩
      · exact ⟨_, .unsupported hq hd⟩
  | tick a =>
    rw [State.enabled, beq_iff_eq]
    exact ⟨fun ⟨_, h⟩ => by cases h; assumption, fun hm => ⟨_, .tick hm⟩⟩
  | poll =>
    rw [State.enabled]
    refine ⟨fun ⟨_, h⟩ => by cases h <;> assumption, fun ha => ?_⟩
    cases hm : (s.chan s.sessAxis).motion with
    | idle => exact ⟨_, .pollStopped ha hm⟩
    | running =>
      cases hd : (detect s).1 with
      | false => exact ⟨_, .pollQuiet ha hm hd⟩
      | true => exact ⟨_, .pollEdge ha hm hd⟩
  | reset => exact ⟨fun _ => rfl, fun _ => ⟨_, .reset⟩⟩

/-- No enabling condition reads the timers, the inputs or the script. -/
@[simp] theorem enabled_enter (s : State) (e : Stimulus) (rest : List Stimulus) (ev : Event) :
    (s.enter e rest).enabled ev = s.enabled ev := by
  cases ev <;> simp [State.enabled, State.requestWaiting, chan_enter]

/-- Settles O50: the relation of the transitions is inhabited exactly where one is enabled. -/
theorem stepCompletesIffEnabled : Obligations.StepCompletesIffEnabled := by
  intro s e rest hs
  simp only [step_next hs, exists_performs_iff, enabled_enter]

/-! ## The interval of a step timer -/

theorem validPeriod_iff_scaledValue (p : Word) : validPeriod p = true ↔
    isFinite p = true ∧ 27 * 2 ^ 149 < scaledValue p * 10000 ∧ scaledValue p * 100 ≤ 27 * 2 ^ 149 := by
  simp only [validPeriod, validPeriodWith, Config.boundaryCompare, Bool.and_eq_true, decide_eq_true_eq]
  rfl

theorem halfInterval_of_isFinite {p : Word} (h : isFinite p = true) : halfInterval p = scaledValue p * 10 := by
  rw [halfInterval, if_pos h]
  change scaledValue p * 20 / 2 = scaledValue p * 10
  omega

/-- The interval of a valid period is above 1.35 ms and at most 135 ms (R112). -/
theorem halfInterval_bounds {p : Word} (h : validPeriod p = true) :
    27 * 2 ^ 150 < halfInterval p * 2000 ∧ halfInterval p * 20 ≤ 27 * 2 ^ 150 := by
  obtain ⟨hfinite, hmin, hmax⟩ := (validPeriod_iff_scaledValue p).1 h
  rw [halfInterval_of_isFinite hfinite]
  have hbounds : 27 * 2 ^ 150 < scaledValue p * 10 * 2000 ∧ scaledValue p * 10 * 20 ≤ 27 * 2 ^ 150 := by omega
  exact hbounds

/-- Settles O54: in units of `Time` the interval is ten times the datum in units of 2^-149. -/
theorem armedIntervalIsHalfThePeriod : Obligations.ArmedIntervalIsHalfThePeriod := by
  have hunits : (Config.unitsPerSecond : Rat) = 10 * 2 ^ 150 := by norm_num [Config.unitsPerSecond]
  refine ⟨by rw [hunits]; norm_num [Config.pollInterval], fun p hfinite => ⟨?_, fun hvalid => ?_⟩⟩
  · rw [hunits, halfInterval_of_isFinite hfinite, val]
    push_cast
    ring
  · obtain ⟨hmin, hmax⟩ := halfInterval_bounds hvalid
    have hminQ : (27 * 2 ^ 150 : Rat) < halfInterval p * 2000 := by exact_mod_cast hmin
    have hmaxQ : (halfInterval p * 20 : Rat) ≤ 27 * 2 ^ 150 := by exact_mod_cast hmax
    rw [hunits, lt_div_iff₀ (by positivity), div_le_iff₀ (by positivity)]
    constructor <;> linarith

/-! ## The invariant of one axis -/

section
variable {c : Channel}

theorem Channel.inv_advance (dt : Time) : (c.advance dt).Inv ↔ c.Inv := by simp [Channel.Inv]

/-- A configured axis with a valid period runs within the bounds of R112, whatever its direction. -/
theorem Channel.inv_run (hc : c.configured = true) (hp : validPeriod c.period = true)
    (hlatch : c.motion = .running → 27 * 2 ^ 150 < c.halfLatch * 2000 ∧ c.halfLatch * 20 ≤ 27 * 2 ^ 150) :
    c.run.Inv := by
  refine ⟨by simp, by simp, by simp [hc], by simp [hp], fun _ => ?_⟩
  cases hm : c.motion with
  | running => rw [c.run_of_running hm]; exact hlatch hm
  | idle => rw [c.run_of_idle hm]; exact halfInterval_bounds hp

variable {s : State} {b : Axis}

theorem ExecutesOn.inv {i : Instr} (h : ExecutesOn s b i c) (hs : (s.chan b).Inv) : c.Inv := by
  obtain ⟨hpin, hdir, hrunning, hperiod, hlatch⟩ := hs
  cases h with
  | untouched => exact ⟨hpin, hdir, hrunning, hperiod, hlatch⟩
  | configure hp hw => exact ⟨hpin, hdir, fun _ => rfl, fun _ => hp, hlatch⟩
  | stop hw => exact ⟨fun _ => rfl, fun _ => rfl, nofun, hperiod, nofun⟩
  | run hw hc => exact Channel.inv_run hc (hperiod hc) hlatch
  | homing hi hw hc => exact Channel.inv_run hc (hperiod hc) hlatch
  | homingUnconfigured hi hw hc =>
    refine ⟨hpin, fun hm => ?_, hrunning, hperiod, hlatch⟩
    cases hi with
    | returnHome haway => rfl
    | runToNext => exact hdir hm
    | runToPrevious => rfl

theorem PerformsOn.inv {e : Event} (h : PerformsOn s b e c) (hs : (s.chan b).Inv) : c.Inv := by
  obtain ⟨hpin, hdir, hrunning, hperiod, hlatch⟩ := id hs
  cases h with
  | untouched he => exact hs
  | command hq hd hx => exact hx.inv (by simpa using hs)
  | tick hm => exact ⟨by simp [hm], by simp [hm], by simpa using hrunning, by simpa using hperiod,
      by simpa using hlatch⟩
  | edge => exact ⟨fun _ => rfl, fun _ => rfl, nofun, hperiod, nofun⟩
  | reset => decide

/-- A flag that is set stays set through everything but a reset (R13). -/
theorem PerformsOn.configured {e : Event} (h : PerformsOn s b e c) (he : e ≠ .reset)
    (hs : (s.chan b).configured = true) : c.configured = true := by
  cases h with
  | command hq hd hx => cases hx <;> simp_all [Channel.stopped]
  | reset => exact absurd rfl he
  | _ => simpa [Channel.halted] using hs

end

/-! ## The invariant of the block -/

section
variable {s t : State} {e : Event}

/-- What the invariant says of the board: by the connection, and PUMP_RUNNING only while some axis runs. -/
def State.BoardInv (s : State) : Prop :=
  (s.seq = .opened → s.board = .idle ∨ s.board = .pumpRunning) ∧
  (s.seq ≠ .opened → s.board = .waitForConnection ∨ s.board = .idle) ∧
  (s.board = .pumpRunning → s.allIdle = false)

theorem State.inv_iff : s.Inv ↔ (∀ a, (s.chan a).Inv) ∧
    (s.pollArmed = true → (s.chan s.sessAxis).configured = true) ∧ s.BoardInv := by
  constructor
  · intro h
    obtain ⟨-, -, -, hsession, hboard⟩ := id h
    exact ⟨h.chan, hsession, hboard⟩
  · rintro ⟨hchan, hsession, hboard⟩
    exact ⟨hchan .x, hchan .y, hchan .z, hsession, hboard⟩

theorem State.Inv.enter (h : s.Inv) (e : Stimulus) (rest : List Stimulus) : (s.enter e rest).Inv := by
  obtain ⟨hchan, hsession, hboard⟩ := State.inv_iff.1 h
  refine State.inv_iff.2 ⟨fun a => ?_, by simpa [chan_enter] using hsession,
    by simpa [State.BoardInv] using hboard⟩
  rw [chan_enter, Channel.inv_advance]
  exact hchan a

/-- A stop leaves the board as it was or IDLE; IDLE is admitted in every state of `seq`. -/
theorem Stops.boardInv (hs : s.BoardInv) (h : Stops s t) (hq : t.seq = s.seq) : t.BoardInv := by
  obtain ⟨hboard, -⟩ := h
  obtain ⟨hopened, hclosed, -⟩ := hs
  rw [State.BoardInv, hboard, hq]
  cases hall : t.allIdle with
  | true => simp
  | false => simpa using ⟨hopened, hclosed⟩

theorem Performs.boardInv (h : Performs s e t) (hs : s.BoardInv) : t.BoardInv := by
  have hsame {u : State} (hb : u.board = s.board) (hm : u.allIdle = s.allIdle) (hq : u.seq = s.seq) :
      u.BoardInv := by
    rw [State.BoardInv, hb, hm, hq]
    exact hs
  cases h with
  | listen hq => exact ⟨nofun, fun _ => .inl rfl, nofun⟩
  | accept hq => exact ⟨fun _ => .inl rfl, fun _ => .inr rfl, nofun⟩
  | disconnect hq => exact ⟨nofun, fun _ => .inl rfl, nofun⟩
  | command hq _ hx =>
    have hseq : t.seq = s.seq := hx.seq_eq
    obtain ⟨hb, hm⟩ | ⟨w, a, -, -, hstop⟩ | ⟨w, a, -, -, -, hm, hb⟩ := hx.board_cases
    · exact hsame hb hm hseq
    · exact Stops.boardInv hs hstop hseq
    · exact ⟨fun _ => .inr hb, fun hne => absurd (hseq.trans hq) hne,
        fun _ => (allIdle_false_iff t).2 ⟨a, hm⟩⟩
  | tick hm => exact hsame (by simp) allIdle_tick (by simp)
  | pollEdge ha hm _ => exact (stops_edge _ _ _).boardInv hs (by simp)
  | reset => exact ⟨nofun, fun _ => .inl rfl, nofun⟩
  | _ => exact hsame rfl rfl rfl

/-- Every transition keeps the invariant of the block. -/
theorem Performs.inv (h : Performs s e t) (hs : s.Inv) : t.Inv := by
  obtain ⟨hchan, hsession, hboard⟩ := State.inv_iff.1 hs
  refine State.inv_iff.2 ⟨fun a => (h.on a).inv (hchan a), fun harmed => ?_, h.boardInv hboard⟩
  have hkept (he : e ≠ .reset) (haxis : t.sessAxis = s.sessAxis) (hs : s.pollArmed = true) :
      (t.chan t.sessAxis).configured = true := by
    rw [haxis]
    exact (h.on _).configured he (hsession hs)
  obtain ⟨-, ha, haxis, -⟩ | ⟨he, ha, haxis, -⟩ | ⟨-, ha⟩ |
    ⟨he, i, tail, w, a, m, d, d', -, -, -, hc, rfl⟩ := h.session_cases
  · refine hkept ?_ haxis (ha ▸ harmed)
    rintro rfl
    cases h
    exact nomatch harmed
  · exact hkept (he ▸ nofun) haxis ha
  · simp [ha] at harmed
  · simpa using hc

end

/-- Settles O51: a step is a transition from the entered state, which meets the invariant as well. -/
theorem stepKeepsTheInvariant : Obligations.StepKeepsTheInvariant := by
  intro s t hs h
  obtain ⟨-, hq, rfl⟩ | ⟨-, -, rfl⟩ | ⟨e, rest, -, hp⟩ := step_next_cases h
  · exact (Performs.listen hq).inv hs
  · exact hs
  · exact (perform_next.1 hp).inv (hs.enter e rest)

/-- Settles O52: the reset state is a literal. -/
theorem resetMeetsTheInvariants : Obligations.ResetMeetsTheInvariants :=
  ⟨by decide, by decide, by decide⟩

/-! ## The schedule -/

section
variable {s t : State} {e : Event}

/-- Time does not run back, and overruns no armed timer (R134, R136). -/
def State.InTime (s : State) (dt : Time) : Prop :=
  0 ≤ dt ∧ (∀ b : Axis, (s.chan b).motion = .running → dt ≤ (s.chan b).tickIn) ∧
    (s.pollArmed = true → dt ≤ s.pollIn)

/-- A firing comes at the end of its timer's interval. -/
def State.Due (s : State) (dt : Time) (e : Event) : Prop :=
  (∀ b : Axis, e = .tick b → dt = (s.chan b).tickIn) ∧ (e = .poll → dt = s.pollIn)

theorem beforeTick_iff (s : State) (dt : Time) (a : Axis) : s.beforeTick dt a = true ↔
    ((s.chan a).motion = .running → dt ≤ (s.chan a).tickIn) := by
  cases hm : (s.chan a).motion <;> simp [State.beforeTick, State.stepTimerArmed, hm]

theorem due_iff (s : State) (dt : Time) (e : Event) : s.due dt e = true ↔ s.Due dt e := by
  cases e <;> simp [State.due, State.Due]

theorem admits_iff (s : State) (e : Stimulus) : s.admits e = true ↔ s.InTime e.dt ∧ s.Due e.dt e.event := by
  have hall : (∀ b : Axis, (s.chan b).motion = .running → e.dt ≤ (s.chan b).tickIn) ↔
      s.beforeTick e.dt .x = true ∧ s.beforeTick e.dt .y = true ∧ s.beforeTick e.dt .z = true := by
    simp only [beforeTick_iff]
    exact ⟨fun h => ⟨h .x, h .y, h .z⟩, fun ⟨hx, hy, hz⟩ b => by cases b <;> assumption⟩
  have hpoll : s.beforePoll e.dt = true ↔ (s.pollArmed = true → e.dt ≤ s.pollIn) := by
    cases ha : s.pollArmed <;> simp [State.beforePoll, ha]
  rw [State.InTime, hall, ← hpoll, ← due_iff]
  simp only [State.admits, Bool.and_eq_true, decide_eq_true_eq]
  tauto

theorem onTime_iff {e : Stimulus} {rest : List Stimulus} (hs : s.script = e :: rest) :
    s.onTime = true ↔ s.InTime e.dt ∧ s.Due e.dt e.event := by
  simp [State.onTime, hs, admits_iff]

theorem timedStep_of_onTime (h : s.onTime = true) : timedStep s = step s := if_pos h

/-- A tick turns the level of the line. -/
theorem Channel.tick_pin_ne (c : Channel) : c.tick.pin ≠ c.pin := by
  cases h : c.pin <;> simp [Channel.tick, h]

end

/-- Settles O60: the schedule is the condition the timed step tests, and an armed timer's firing is enabled. -/
theorem timedStepFollowsTheSchedule : Obligations.TimedStepFollowsTheSchedule := by
  refine ⟨fun s hs => timedStep_of_onTime (by simp [State.onTime, hs]), ?_⟩
  intro s e rest hs inTime due
  have honTime : s.onTime = true ↔ inTime ∧ due := onTime_iff hs
  refine ⟨fun h => timedStep_of_onTime (honTime.2 h), fun h => if_neg (mt honTime.1 h), ?_, ?_⟩
  · intro a hin he hm hdt
    have hdue : due := ⟨fun b hb => by obtain rfl : a = b := by simpa [he] using hb
                                       exact hdt, fun hb => by simp [he] at hb⟩
    refine ⟨_, (timedStep_of_onTime (honTime.2 ⟨hin, hdue⟩)).trans (step_tick_running hs he hm), ?_⟩
    rw [chan_setChan_same]
    exact (s.chan a).tick_pin_ne
  · intro hin he ha hdt
    have hdue : due := ⟨fun b hb => by simp [he] at hb, fun _ => hdt⟩
    obtain ⟨t, ht⟩ := (exists_performs_iff (s.enter e rest) e.event).2 (by simpa [he, State.enabled] using ha)
    exact ⟨t, (timedStep_of_onTime (honTime.2 ⟨hin, hdue⟩)).trans ((step_next hs).2 ht)⟩

/-! ## The phase of the timers -/

section
variable {s : State} {b : Axis} {c : Channel}

/-- An axis that a command starts has its whole interval before it (R137). -/
theorem ExecutesOn.started {i : Instr} (h : ExecutesOn s b i c) (hm : (s.chan b).motion = .idle)
    (hc : c.motion = .running) : c.tickIn = c.halfLatch := by
  have hrun (c' : Channel) (hm : c'.motion = .idle) : c'.run.tickIn = c'.run.halfLatch := by
    rw [c'.run_of_idle hm]
  cases h with
  | run hw hcfg => exact hrun _ hm
  | homing hi hw hcfg => exact hrun _ hm
  | stop hw => exact nomatch hc
  | _ => simp [hm] at hc

/-- Only a command starts an axis. -/
theorem PerformsOn.started {e : Event} (h : PerformsOn s b e c) (hm : (s.chan b).motion = .idle)
    (hc : c.motion = .running) : c.tickIn = c.halfLatch := by
  cases h with
  | command hq hd hx => exact hx.started (by simpa using hm) hc
  | edge ha hb hm' => exact nomatch hc
  | reset => exact nomatch hc
  | _ => simp [hm] at hc

theorem State.phased_iff (s : State) : s.Phased ↔ (∀ a, (s.chan a).Phased) ∧
    (s.pollArmed = true → 0 ≤ s.pollIn ∧ s.pollIn ≤ Config.pollInterval) :=
  ⟨fun ⟨hx, hy, hz, hpoll⟩ => ⟨fun a => by cases a <;> assumption, hpoll⟩,
    fun ⟨hchan, hpoll⟩ => ⟨hchan .x, hchan .y, hchan .z, hpoll⟩⟩

/-- A running axis's interval is positive (R112). -/
theorem Channel.Inv.halfLatch_nonneg (hc : c.Inv) (hm : c.motion = .running) : 0 ≤ c.halfLatch := by
  obtain ⟨-, -, -, -, hlatch⟩ := hc
  have hpositive (n : Int) (h : 27 * 2 ^ 150 < n * 2000) : 0 ≤ n := by omega
  exact hpositive _ (hlatch hm).1

variable {t : State} {e : Stimulus} {rest : List Stimulus}

/-- The phase of a step timer after an event on schedule: a whole interval after a start or a firing, and less
the time that passed after everything else. -/
theorem PerformsOn.phased (h : PerformsOn (s.enter e rest) b e.event c) (hc : c.Inv)
    (hs : (s.chan b).Phased) (hdt : 0 ≤ e.dt)
    (hin : (s.chan b).motion = .running → e.dt ≤ (s.chan b).tickIn) : c.Phased := by
  intro hm
  have hwhole (h : c.tickIn = c.halfLatch) : 0 ≤ c.tickIn ∧ c.tickIn ≤ c.halfLatch := by
    rw [h]
    exact ⟨hc.halfLatch_nonneg hm, le_rfl⟩
  cases hb : (s.chan b).motion with
  | idle => exact hwhole (h.started (by simpa [chan_enter] using hb) hm)
  | running =>
    obtain ⟨-, rfl⟩ | ⟨-, hlatch, htick, -, -⟩ := h.running (by simpa [chan_enter] using hb) hm
    · exact hwhole (by simp)
    · rw [chan_enter] at hlatch htick
      rw [hlatch, htick, advance_halfLatch, advance_tickIn, if_pos hb]
      exact ⟨sub_nonneg.2 (hin hb), (sub_le_self _ hdt).trans (hs hb).2⟩

/-- The poll timer's phase, the same way. -/
theorem Performs.poll_phased (h : Performs (s.enter e rest) e.event t) (hdt : 0 ≤ e.dt)
    (hin : s.pollArmed = true → e.dt ≤ s.pollIn)
    (hs : s.pollArmed = true → 0 ≤ s.pollIn ∧ s.pollIn ≤ Config.pollInterval) (ht : t.pollArmed = true) :
    0 ≤ t.pollIn ∧ t.pollIn ≤ Config.pollInterval := by
  have hinterval : (0 : Time) ≤ Config.pollInterval := by decide
  obtain ⟨-, ha, -, -, -, hpollIn⟩ | ⟨-, -, -, -, hpollIn⟩ | ⟨-, ha⟩ |
    ⟨-, i, tail, w, a, m, d, d', -, -, -, -, rfl⟩ := h.session_cases
  · have harmed : s.pollArmed = true := ha.symm.trans ht
    rw [hpollIn, enter_pollIn, if_pos harmed]
    exact ⟨sub_nonneg.2 (hin harmed), (sub_le_self _ hdt).trans (hs harmed).2⟩
  · rw [hpollIn ht]
    exact ⟨hinterval, le_rfl⟩
  · simp [ha] at ht
  · simpa using hinterval

end

/-- Settles O56: on schedule no timer is overrun, and what starts or fires has its whole interval, which the
invariant makes positive. -/
theorem timedStepKeepsPhase : Obligations.TimedStepKeepsPhase := by
  intro s t hinv hphased h
  obtain ⟨honTime, hstep⟩ := timedStep_next h
  have htinv : t.Inv := stepKeepsTheInvariant s t hinv hstep
  obtain ⟨hchan, hpoll⟩ := (State.phased_iff s).1 hphased
  obtain ⟨-, -, rfl⟩ | ⟨-, -, rfl⟩ | ⟨e, rest, hs, hp⟩ := step_next_cases hstep
  · exact hphased
  · exact hphased
  · replace hp := perform_next.1 hp
    obtain ⟨⟨hdt, htick, hpollIn⟩, -⟩ := (onTime_iff hs).1 honTime
    exact (State.phased_iff t).2
      ⟨fun a => (hp.on a).phased (htinv.chan a) (hchan a) hdt (htick a), hp.poll_phased hdt hpollIn hpoll⟩

/-- Settles O55: an armed timer that stays armed loses the elapsed time, or fires on schedule and starts again;
the session cases say what else arms the poll timer. -/
theorem timersFireAtTheirIntervals : Obligations.TimersFireAtTheirIntervals := by
  intro s t e rest hs h
  obtain ⟨honTime, hstep⟩ := timedStep_next h
  obtain ⟨-, hdue, hduePoll⟩ := (onTime_iff hs).1 honTime
  have hp := (step_next hs).1 hstep
  refine ⟨fun a hm ht => ?_, fun harmed harmed' => ?_⟩
  · obtain ⟨he, hc⟩ | ⟨he, -, htick, -, -⟩ := (hp.on a).running (by simpa [chan_enter] using hm) ht
    · exact ⟨fun _ => ⟨hdue a he, by rw [hc]; simp [chan_enter]⟩, fun hne => absurd he hne⟩
    · exact ⟨fun h => absurd h he, fun _ => by rw [htick, chan_enter, advance_tickIn, if_pos hm]⟩
  · obtain ⟨he, -, -, -, -, hpollIn⟩ | ⟨he, -, -, -, hpollIn⟩ | ⟨-, ha⟩ |
      ⟨he, i, tail, w, a, m, d, d', hd, hi, hw, -, rfl⟩ := hp.session_cases
    · exact ⟨fun h => absurd h he, fun _ => .inl (by rw [hpollIn, enter_pollIn, if_pos harmed])⟩
    · exact ⟨fun _ => ⟨hduePoll he, hpollIn harmed'⟩, fun hne => absurd he hne⟩
    · simp [ha] at harmed'
    · refine ⟨fun h => by simp [he] at h, fun _ => .inr ⟨he, by simp, w, i, tail, a, hd, ?_, hw, by simp,
        by simp, by simp⟩⟩
      obtain ⟨hi, -⟩ | ⟨hi, -⟩ := hi.eq_or
      · exact .inl hi
      · exact .inr hi

end Sys2Proof.Machine
end

section
/-! PROOFS. Noninterference: what no rule reads. Each proof runs a transition, case by case of `Performs`, from the
changed state too, and compares where the two lead; a refusal goes by registers that neither change touches. -/

namespace Sys2Proof.Machine

/-! ## Refusals -/

section
variable {s s' : State}

/-- What a refusal goes by is the same in the two states: `seq`, the stream, the motions and `pollArmed`. -/
def SameGuards (s s' : State) : Prop :=
  s'.seq = s.seq ∧ s'.rx = s.rx ∧ (∀ a, (s'.chan a).motion = (s.chan a).motion) ∧ s'.pollArmed = s.pollArmed

theorem SameGuards.symm (h : SameGuards s s') : SameGuards s' s := by
  obtain ⟨hseq, hrx, hmotion, hpoll⟩ := h
  exact ⟨hseq.symm, hrx.symm, fun a => (hmotion a).symm, hpoll.symm⟩

/-- No command is refused. -/
theorem exec_ne_refused (i : Instr) (s : State) (r : Refusal) : exec i s ≠ .refused r := by
  obtain ⟨t, ht⟩ := exists_executes i s
  simp [ht.exec_eq]

theorem SameGuards.perform_refused {e : Event} {r : Refusal} (h : SameGuards s s')
    (hr : perform e s = .refused r) : perform e s' = .refused r := by
  obtain ⟨hseq, hrx, hmotion, hpoll⟩ := h
  cases e with
  | listen => cases hq : s.seq <;> simp_all [perform, doListen]
  | accept => cases hq : s.seq <;> simp_all [perform, doAccept]
  | disconnect => cases hq : s.seq <;> simp_all [perform, doDisconnect]
  | send bytes => cases hq : s.seq <;> simp_all [perform, doSend]
  | command =>
    cases hq : s.seq with
    | preListen => simp_all [perform, receiveCommand]
    | listening => simp_all [perform, receiveCommand]
    | opened =>
      cases hd : decode s.rx <;> simp_all [perform, receiveCommand, dispatchFrame, exec_ne_refused]
  | tick a => cases hm : (s.chan a).motion <;> simp_all [perform, doTick, State.stepTimerArmed]
  | poll =>
    obtain ⟨ha, he⟩ | ⟨-, -, he⟩ | ⟨-, -, -, he⟩ | ⟨-, -, -, he⟩ := doPoll_cases s
    · simp_all [perform, doPoll]
    all_goals simp [perform, he] at hr
  | reset => simp [perform, doReset] at hr

theorem SameGuards.perform_refused_iff {e : Event} {r : Refusal} (h : SameGuards s s') :
    perform e s = .refused r ↔ perform e s' = .refused r :=
  ⟨h.perform_refused, h.symm.perform_refused⟩

end

/-! ## What a command reads of the state -/

section
variable {s s' t : State} {i : Instr} {a : Axis}

/-- The flow field goes by the board, the configuration and the count of draws (R79). -/
theorem flowField_congr {rate : Word} {draws : Nat} (hboard : s'.board = s.board)
    (hconfigured : (s'.chan a).configured = (s.chan a).configured)
    (hperiod : (s'.chan a).period = (s.chan a).period) (hdraws : s'.draws = s.draws)
    (hf : flowField a s = (rate, { s with draws := draws })) :
    flowField a s' = (rate, { s' with draws := draws }) := by
  have heq : (flowField a s).2.draws = draws := by rw [hf]
  have hrate : (flowField a s).1 = rate := by rw [hf]
  have hself : s' = { s' with board := s.board, draws := s.draws } := by rw [← hboard, ← hdraws]
  rw [← heq, ← hrate]
  simp only [flowField, hboard, hconfigured, hperiod]
  split_ifs
  · exact Prod.ext rfl hself
  · rw [hdraws]
  · exact Prod.ext rfl hself

/-- A homing-class command is one in every state that points the axis the same way, as far as it looks. -/
theorem HomingCommand.congr {w : Word} {m : HomingMode} {d d' : Direction}
    (hi : HomingCommand s a i w m d d') (hdir : (s'.chan a).dir = (s.chan a).dir)
    (haway : i = .returnHome w → s'.homeIn = s.homeIn ∧ s'.portIn = s.portIn) :
    HomingCommand s' a i w m d d' := by
  cases hi with
  | returnHome h =>
    obtain ⟨hhome, hport⟩ := haway rfl
    exact .returnHome (by rwa [hhome, hport])
  | runToNext => rw [← hdir]; exact .runToNext
  | runToPrevious => exact .runToPrevious

/-- And with other directions in every state with the same levels. -/
theorem HomingCommand.exists_of_levels {w : Word} {m : HomingMode} {d d' : Direction}
    (hi : HomingCommand s a i w m d d') (hhome : s'.homeIn = s.homeIn) (hport : s'.portIn = s.portIn) :
    ∃ e e', HomingCommand s' a i w m e e' := by
  cases hi with
  | returnHome h => exact ⟨_, _, .returnHome (by rwa [hhome, hport])⟩
  | runToNext => exact ⟨_, _, .runToNext⟩
  | runToPrevious => exact ⟨_, _, .runToPrevious⟩

/-- What a reply goes by is the same in the two states. -/
def SameReplies (s s' : State) : Prop :=
  (∀ a, (s'.chan a).configured = (s.chan a).configured ∧ (s'.chan a).period = (s.chan a).period ∧
    (s'.chan a).motion = (s.chan a).motion ∧ (s'.chan a).steps = (s.chan a).steps) ∧
  s'.board = s.board ∧ s'.homeIn = s.homeIn ∧ s'.portIn = s.portIn ∧ s'.draws = s.draws ∧ s'.tx = s.tx

/-- The same command is then answered with the same reply. -/
theorem Executes.reply_congr (h : Executes s i t) (hs : SameReplies s s') :
    ∃ u r, Executes s' i u ∧ t.tx = s.tx ++ [r] ∧ u.tx = s.tx ++ [r] := by
  obtain ⟨hchan, hboard, hhome, hport, hdraws, htx⟩ := hs
  cases h with
  | invalidAxis hi hw hp => exact ⟨_, _, .invalidAxis hi hw hp, reply_tx .., by rw [reply_tx, htx]⟩
  | invalidPeriod hp => exact ⟨_, _, .invalidPeriod hp, reply_tx .., by rw [reply_tx, htx]⟩
  | configure hp hw => exact ⟨_, _, .configure hp hw, by rw [reply_tx, setChan_tx], by simp [htx]⟩
  | @status w a rate draws hw hf =>
    obtain ⟨hconfigured, hperiod, hmotion, hsteps⟩ := hchan a
    refine ⟨_, _, .status hw (flowField_congr hboard hconfigured hperiod hdraws hf), reply_tx .., ?_⟩
    simp [htx, hboard, hhome, hport, hmotion, hsteps]
  | sysInfo => exact ⟨_, _, .sysInfo, reply_tx .., by rw [reply_tx, htx]⟩
  | stop hw =>
    exact ⟨_, _, .stop hw, by rw [reply_tx, boardIdleIfAllIdle_tx, setChan_tx], by simp [htx]⟩
  | run hw hc =>
    exact ⟨_, _, .run hw ((hchan _).1.trans hc), by rw [reply_tx, setChan_tx], by simp [htx]⟩
  | runUnconfigured hw hc =>
    exact ⟨_, _, .runUnconfigured hw ((hchan _).1.trans hc), reply_tx .., by rw [reply_tx, htx]⟩
  | atHome hw hh => exact ⟨_, _, .atHome hw (by rwa [hhome, hport]), reply_tx .., by rw [reply_tx, htx]⟩
  | homing hi hw hc =>
    obtain ⟨d, d', hi'⟩ := hi.exists_of_levels hhome hport
    exact ⟨_, _, .homing hi' hw ((hchan _).1.trans hc), by rw [reply_tx, homed_tx], by simp [htx]⟩
  | homingUnconfigured hi hw hc =>
    obtain ⟨d, d', hi'⟩ := hi.exists_of_levels hhome hport
    exact ⟨_, _, .homingUnconfigured hi' hw ((hchan _).1.trans hc), by rw [reply_tx, setDir_tx], by simp [htx]⟩

end

/-- Settles O58: neither the mode nor a direction is among what a reply goes by. -/
theorem modeAndDirectionAreInNoFrame : Obligations.ModeAndDirectionAreInNoFrame := by
  intro i s m a d
  obtain ⟨t, ht⟩ := exists_executes i s
  have hsame : SameReplies s { s.setDir a d with sessMode := m } := by
    refine ⟨fun b => ?_, by simp, by simp, by simp, by simp, by simp⟩
    by_cases hb : b = a
    · simp [hb]
    · simp [chan_setDir_ne, hb]
  obtain ⟨u, r, hu, htx, hutx⟩ := ht.reply_congr hsame
  exact ⟨t, u, r, ht.exec_eq, hu.exec_eq, htx, hutx⟩

/-! ## The levels of the sensors and the previous port level -/

/-- The state with other values in `prevPort` and in the two inputs. -/
def State.withLevels (s : State) (prev home port : Level) : State :=
  { s with prevPort := prev, homeIn := home, portIn := port }

section
variable {s t : State} {i : Instr} {e : Event}

@[simp] theorem chan_withLevels (s : State) (prev home port : Level) (a : Axis) :
    (s.withLevels prev home port).chan a = s.chan a := by cases a <;> rfl

theorem withLevels_setChan (s : State) (prev home port : Level) (a : Axis) (c : Channel) :
    (s.withLevels prev home port).setChan a c = (s.setChan a c).withLevels prev home port := by cases a <;> rfl

/-- The board rule reads no level. -/
theorem withLevels_boardIdleIfAllIdle (s : State) (prev home port : Level) :
    boardIdleIfAllIdle (s.withLevels prev home port) =
      (boardIdleIfAllIdle s).withLevels prev home port := by
  rw [boardIdleIfAllIdle_eq, boardIdleIfAllIdle_eq]
  rfl

/-- `LevelsFollow s t prev prev'`: where `s` had `prev` in `prevPort` instead, `t` has `prev'`: it was kept, and
no PORT session began, or it was written with a level that both states agree on. -/
def LevelsFollow (s t : State) (prev prev' : Level) : Prop :=
  (t.prevPort = s.prevPort ∧ prev' = prev ∧
    (t.pollArmed = true → t.sessMode = .port → s.pollArmed = true ∧ s.sessMode = .port)) ∨
  t.prevPort = prev'

/-- A command does not read `prevPort`, and no level unless it samples it (R43): both by GET_STATUS and by
RETURN_HOME, the port's by the other two homing-class commands, of a configured axis. -/
theorem Executes.withLevels (hx : Executes s i t) (prev home port : Level)
    (hboth : ∀ (w : Word) (a : Axis), i = .getStatus w ∨ i = .returnHome w → w.toNat = a.index →
      home = s.homeIn ∧ port = s.portIn)
    (hport : ∀ (w : Word) (a : Axis), i = .runToNext w ∨ i = .runToPrevious w → w.toNat = a.index →
      (s.chan a).configured = true → port = s.portIn) :
    ∃ prev', Executes (s.withLevels prev home port) i (t.withLevels prev' home port) ∧
      LevelsFollow s t prev prev' := by
  have hkept (harmed : t.pollArmed = s.pollArmed) (hmode : t.sessMode = s.sessMode)
      (hprev : t.prevPort = s.prevPort) : LevelsFollow s t prev prev :=
    .inl ⟨hprev, rfl, fun ha hm => ⟨harmed ▸ ha, hmode ▸ hm⟩⟩
  cases hx with
  | invalidAxis hi hw hp => exact ⟨_, .invalidAxis hi hw hp, hkept rfl rfl rfl⟩
  | invalidPeriod hp => exact ⟨_, .invalidPeriod hp, hkept rfl rfl rfl⟩
  | configure hp hw =>
    have h := Executes.configure (s := s.withLevels prev home port) hp hw
    rw [withLevels_setChan, chan_withLevels] at h
    exact ⟨_, h, hkept (by simp) (by simp) (by simp)⟩
  | @status w a rate draws hw hf =>
    obtain ⟨rfl, rfl⟩ := hboth w a (.inl rfl) hw
    have h := Executes.status (s := s.withLevels prev s.homeIn s.portIn) hw
      (flowField_congr (s := s) rfl (by simp) (by simp) rfl hf)
    rw [chan_withLevels] at h
    exact ⟨_, h, hkept rfl rfl rfl⟩
  | sysInfo => exact ⟨_, .sysInfo, hkept rfl rfl rfl⟩
  | stop hw =>
    have h := Executes.stop (s := s.withLevels prev home port) hw
    rw [withLevels_setChan, chan_withLevels, withLevels_boardIdleIfAllIdle] at h
    exact ⟨_, h, hkept (by simp) (by simp) (by simp)⟩
  | run hw hc =>
    have h := Executes.run (s := s.withLevels prev home port) hw (by simpa using hc)
    rw [withLevels_setChan, chan_withLevels] at h
    exact ⟨_, h, hkept (by simp) (by simp) (by simp)⟩
  | runUnconfigured hw hc =>
    exact ⟨_, .runUnconfigured hw (by simpa using hc), hkept rfl rfl rfl⟩
  | @atHome w a hw hh =>
    obtain ⟨rfl, rfl⟩ := hboth w a (.inr rfl) hw
    exact ⟨_, .atHome hw hh, hkept rfl rfl rfl⟩
  | @homing i w a m d d' hi hw hc =>
    have hi' : HomingCommand (s.withLevels prev home port) a i w m d d' :=
      hi.congr (by simp) fun he => hboth w a (.inr he) hw
    have h := Executes.homing hi' hw (by simpa using hc)
    rw [chan_withLevels] at h
    obtain ⟨rfl, rfl⟩ | ⟨hnext, rfl⟩ := hi.eq_or
    · rw [homed_home_eq, withLevels_setChan] at h
      exact ⟨prev, h, .inl (by simp)⟩
    · obtain rfl := hport w a hnext hw hc
      rw [homed_port_eq, withLevels_setChan] at h
      refine ⟨s.portIn, ?_, .inr (by simp)⟩
      simpa [homed_port_eq, State.withLevels, State.reply] using h
  | @homingUnconfigured i w a m d d' hi hw hc =>
    have hi' : HomingCommand (s.withLevels prev home port) a i w m d d' :=
      hi.congr (by simp) fun he => hboth w a (.inr he) hw
    have h := Executes.homingUnconfigured hi' hw (by simpa using hc)
    rw [State.setDir, withLevels_setChan, chan_withLevels] at h
    exact ⟨_, h, hkept (by simp) (by simp) (by simp)⟩

/-- A poll detects the same where it sees the same levels; `prevPort` then is the sample or untouched. -/
theorem detect_withLevels {prev home port : Level} (hport : port = s.portIn)
    (hmode : s.sessMode = .home ∧ home = s.homeIn ∨ s.sessMode = .port ∧ prev = s.prevPort) :
    ∃ prev', detect (s.withLevels prev home port) = ((detect s).1, prev') ∧
      ((detect s).2 = s.prevPort ∧ prev' = prev ∧ s.sessMode = .home ∨ (detect s).2 = prev') := by
  subst hport
  obtain ⟨hmode, rfl⟩ | ⟨hmode, rfl⟩ := hmode
  · exact ⟨prev, by rw [detect_home s hmode]; exact detect_home _ hmode,
      .inl ⟨by rw [detect_home s hmode], rfl, hmode⟩⟩
  · exact ⟨s.portIn, by rw [detect_port s hmode]; exact detect_port _ hmode,
      .inr (by rw [detect_port s hmode])⟩

/-- A transition does not either, unless it is a command, or a poll of a running target: then the levels that
its mode looks at are the same (R72, R73). -/
theorem Performs.withLevels (h : Performs s e t) (prev home port : Level)
    (hcommand : e = .command → home = s.homeIn ∧ port = s.portIn)
    (hpoll : e = .poll → (s.chan s.sessAxis).motion = .running → port = s.portIn ∧
      (s.sessMode = .home ∧ home = s.homeIn ∨ s.sessMode = .port ∧ prev = s.prevPort)) :
    ∃ prev', Performs (s.withLevels prev home port) e (t.withLevels prev' home port) ∧
      LevelsFollow s t prev prev' := by
  have hkept (harmed : t.pollArmed = s.pollArmed) (hmode : t.sessMode = s.sessMode)
      (hprev : t.prevPort = s.prevPort) : LevelsFollow s t prev prev :=
    .inl ⟨hprev, rfl, fun ha hm => ⟨harmed ▸ ha, hmode ▸ hm⟩⟩
  have hchan (a : Axis) := chan_withLevels s prev home port a
  cases h with
  | listen hq => exact ⟨_, .listen hq, hkept rfl rfl rfl⟩
  | accept hq => exact ⟨_, .accept hq, hkept rfl rfl rfl⟩
  | disconnect hq => exact ⟨_, .disconnect hq, hkept rfl rfl rfl⟩
  | send hq => exact ⟨_, .send hq, hkept rfl rfl rfl⟩
  | @command i tail t hq hd hx =>
    obtain ⟨rfl, rfl⟩ := hcommand rfl
    obtain ⟨prev', hx', hfollow⟩ := hx.withLevels prev s.homeIn s.portIn (fun _ _ _ _ => ⟨rfl, rfl⟩)
      (fun _ _ _ _ _ => rfl)
    exact ⟨prev', .command hq hd hx', hfollow⟩
  | unsupported hq hd => exact ⟨_, .unsupported hq hd, hkept rfl rfl rfl⟩
  | @tick a hm =>
    have h := Performs.tick (s := s.withLevels prev home port) (a := a) (by rwa [hchan])
    rw [withLevels_setChan, hchan] at h
    exact ⟨_, h, hkept (by simp) (by simp) (by simp)⟩
  | pollStopped ha hm =>
    exact ⟨_, .pollStopped (s := s.withLevels prev home port) ha (by rwa [hchan]),
      .inl ⟨rfl, rfl, nofun⟩⟩
  | pollEdge ha hm hd =>
    obtain ⟨hport, hmode⟩ := hpoll rfl hm
    obtain ⟨prev', hdetect, hfollow⟩ := detect_withLevels hport hmode
    have h := Performs.pollEdge (s := s.withLevels prev home port) ha (by rwa [hchan]) (by rwa [hdetect])
    rw [hdetect, hchan] at h
    refine ⟨prev', ?_, ?_⟩
    · rw [← withLevels_boardIdleIfAllIdle, ← withLevels_setChan]
      exact h
    · obtain ⟨hprev, rfl, -⟩ | hprev := hfollow
      · exact .inl ⟨by simpa using hprev, rfl, by simp⟩
      · exact .inr (by simpa using hprev)
  | pollQuiet ha hm hd =>
    obtain ⟨hport, hmode⟩ := hpoll rfl hm
    obtain ⟨prev', hdetect, hfollow⟩ := detect_withLevels hport hmode
    have h := Performs.pollQuiet (s := s.withLevels prev home port) ha (by rwa [hchan]) (by rwa [hdetect])
    rw [hdetect] at h
    refine ⟨prev', h, ?_⟩
    obtain ⟨hprev, rfl, -⟩ | hprev := hfollow
    · exact .inl ⟨hprev, rfl, fun ha hm => ⟨ha, hm⟩⟩
    · exact .inr hprev
  | reset => exact ⟨_, .reset, .inr rfl⟩

end

/-- No transition writes the inputs (R25). -/
theorem Performs.inputs_eq {s t : State} {e : Event} (h : Performs s e t) :
    t.homeIn = s.homeIn ∧ t.portIn = s.portIn := by
  cases h with
  | command hq hd hx => exact ⟨hx.homeIn_eq, hx.portIn_eq⟩
  | _ => simp

/-- The levels are no guard. -/
theorem sameGuards_withLevels (s : State) (prev home port : Level) :
    SameGuards s (s.withLevels prev home port) := ⟨rfl, rfl, by simp, rfl⟩

/-- Settles O38: with the inputs as they are, a transition that is not a poll in mode PORT leads on to the same
state but for `prevPort`. -/
theorem prevPortUnobservableOutsidePortMode : Obligations.PrevPortUnobservableOutsidePortMode := by
  intro s p hmode
  by_cases hs : s.script = []
  · rw [step_nil s hs, step_nil { s with prevPort := p } hs]
    cases hq : s.seq <;> simpa [idleStep, doListen, hq] using .inr hmode
  · obtain ⟨e, rest, hs⟩ := List.exists_cons_of_ne_nil hs
    have hstep : step { s with prevPort := p } =
        perform e.event ((s.enter e rest).withLevels p e.home e.port) := step_cons _ e rest hs
    rw [step_cons s e rest hs, hstep]
    refine ⟨fun r => (sameGuards_withLevels _ _ _ _).perform_refused_iff, fun t ht => ?_⟩
    have hp := perform_next.1 ht
    have harmed (he : e.event = .poll) : s.pollArmed = true := by
      simpa [he, State.enabled] using (exists_performs_iff _ _).1 ⟨t, hp⟩
    obtain ⟨prev', hp', hfollow⟩ := hp.withLevels p e.home e.port (fun _ => ⟨rfl, rfl⟩)
      (fun he _ => ⟨rfl, .inl ⟨hmode (harmed he), rfl⟩⟩)
    have hlevels : t.withLevels prev' e.home e.port = { t with prevPort := prev' } := by
      obtain ⟨hhome, hport⟩ := hp.inputs_eq
      rw [State.withLevels, ← enter_homeIn s e rest, ← enter_portIn s e rest, ← hhome, ← hport]
    refine ⟨_, perform_next.2 hp', ?_, ?_⟩
    · rw [hlevels]
    · rw [hlevels]
      obtain ⟨-, -, hsession⟩ | rfl := hfollow
      · refine .inr fun ha => ?_
        cases hm : t.sessMode with
        | home => rfl
        | port =>
          obtain ⟨hsa, hsm⟩ := hsession ha hm
          exact absurd ((hmode hsa).symm.trans hsm) nofun
      · exact .inl rfl

/-! ## The inputs alone -/

section
variable {s t : State} {h q : Level}

/-- With `prevPort` as it is, it stays what the transition leaves. -/
theorem LevelsFollow.eq {prev' : Level} (hf : LevelsFollow s t s.prevPort prev') :
    t.withLevels prev' h q = { t with homeIn := h, portIn := q } := by
  obtain ⟨hprev, rfl, -⟩ | rfl := hf
  · rw [State.withLevels, ← hprev]
  · rfl

theorem exec_withInputs {i : Instr}
    (hboth : ∀ (w : Word) (a : Axis), i = .getStatus w ∨ i = .returnHome w → w.toNat = a.index →
      h = s.homeIn ∧ q = s.portIn)
    (hport : ∀ (w : Word) (a : Axis), i = .runToNext w ∨ i = .runToPrevious w → w.toNat = a.index →
      (s.chan a).configured = true → q = s.portIn) :
    exec i { s with homeIn := h, portIn := q } = withInputsOfResult h q (exec i s) := by
  obtain ⟨t, ht⟩ := exists_executes i s
  obtain ⟨prev', hx, hfollow⟩ := ht.withLevels s.prevPort h q hboth hport
  rw [ht.exec_eq, withInputsOfResult, ← hfollow.eq]
  exact hx.exec_eq

theorem perform_withInputs {e : Event} (hcommand : e ≠ .command)
    (hpoll : e = .poll → (s.chan s.sessAxis).motion = .running → q = s.portIn ∧
      (s.sessMode = .home ∧ h = s.homeIn ∨ s.sessMode = .port)) :
    perform e { s with homeIn := h, portIn := q } = withInputsOfResult h q (perform e s) := by
  cases hr : perform e s with
  | next t =>
    obtain ⟨prev', hp, hfollow⟩ := (perform_next.1 hr).withLevels s.prevPort h q
      (fun he => absurd he hcommand) (fun he hm => by simpa using hpoll he hm)
    rw [withInputsOfResult, ← hfollow.eq]
    exact perform_next.2 hp
  | fault r => exact nomatch r
  | refused r => exact (sameGuards_withLevels s s.prevPort h q).perform_refused hr

end

/-- Settles O39: each clause names transitions that sample neither level, or only a level left as it is. -/
theorem sensorsAreReadOnlyWhenSampled : Obligations.SensorsAreReadOnlyWhenSampled := by
  refine ⟨fun s w p h q => ⟨fun i hi => ?_, fun hw i hi => ?_, fun a hw hc i hi => ?_, fun i hi => ?_⟩,
    fun s ev h q hev hpoll => ?_, fun s h hmode => ?_⟩
  · simp only [List.mem_cons, List.not_mem_nil, or_false] at hi
    obtain rfl | rfl | rfl | rfl := hi <;> exact exec_withInputs (by simp) (by simp)
  · have hnone := (axisOf_eq_none w).2 hw
    simp only [List.mem_cons, List.not_mem_nil, or_false] at hi
    have haxis : i.axisField = some w := by obtain rfl | rfl | rfl | rfl := hi <;> rfl
    have hconfig : ∀ p, i = .setConfig w p → validPeriod p = true := by
      rintro p rfl
      simp at hi
    rw [exec_invalidAxis s haxis hnone hconfig, exec_invalidAxis _ haxis hnone hconfig]
    rfl
  · have hport (v : Word) (b : Axis) (hv : w = v) (hb : v.toNat = b.index)
        (hcb : (s.chan b).configured = true) : q = s.portIn := by
      obtain rfl : b = a := by simpa [(axisOf_eq_some w a).2 hw] using ((axisOf_eq_some w b).2 (hv ▸ hb)).symm
      simp [hc] at hcb
    simp only [List.mem_cons, List.not_mem_nil, or_false] at hi
    obtain rfl | rfl := hi <;>
      exact exec_withInputs (by simp) fun v b hv hb hcb => hport v b (by simpa using hv) hb hcb
  · simp only [List.mem_cons, List.not_mem_nil, or_false] at hi
    obtain rfl | rfl := hi <;> exact exec_withInputs (q := s.portIn) (by simp) fun _ _ _ _ _ => rfl
  · refine perform_withInputs hev fun he hm => ?_
    simp [hpoll he] at hm
  · exact perform_withInputs nofun fun _ _ => ⟨rfl, .inr hmode⟩

end Sys2Proof.Machine
end

section
/-! PROOFS. The timing layer is never read: from two states that are equal but for it, the same transitions lead
to states that are again equal but for it. Each operation keeps that equality, so each case of a transition does. -/

namespace Sys2Proof.Machine

/-! ## Channels equal but for the timing -/

section
variable {c c' : Channel}

theorem Channel.eraseTiming_eq_iff : c.eraseTiming = c'.eraseTiming ↔
    c.period = c'.period ∧ c.configured = c'.configured ∧ c.dir = c'.dir ∧ c.motion = c'.motion ∧
      c.steps = c'.steps ∧ c.pin = c'.pin := by
  simp [Channel.eraseTiming]

/-- The passing of time is timing only. -/
theorem Channel.eraseTiming_advance (c : Channel) (dt : Time) : (c.advance dt).eraseTiming = c.eraseTiming :=
  Channel.eraseTiming_eq_iff.2 (by simp)

/-- A start goes by the motion, and writes timing from the period. -/
theorem Channel.eraseTiming_run (h : c.eraseTiming = c'.eraseTiming) :
    c.run.eraseTiming = c'.run.eraseTiming := by
  obtain ⟨hperiod, hconfigured, hdir, hmotion, hsteps, hpin⟩ := Channel.eraseTiming_eq_iff.1 h
  have hrun : c.run.steps = c'.run.steps := by
    cases hm : c'.motion <;> simp [Channel.run, hmotion, hm, hsteps]
  exact Channel.eraseTiming_eq_iff.2 (by simp [hperiod, hconfigured, hdir, hpin, hrun])

theorem Channel.eraseTiming_tick (h : c.eraseTiming = c'.eraseTiming) :
    c.tick.eraseTiming = c'.tick.eraseTiming := by
  obtain ⟨hperiod, hconfigured, hdir, hmotion, hsteps, hpin⟩ := Channel.eraseTiming_eq_iff.1 h
  cases hp : c'.pin
  · simp [Channel.tick_low, hp, hpin.trans hp, Channel.eraseTiming, hperiod, hconfigured, hdir, hmotion, hsteps]
  · simp [Channel.tick_high, hp, hpin.trans hp, Channel.eraseTiming, hperiod, hconfigured, hdir, hmotion, hsteps]

end

/-! ## States equal but for the timing -/

section
variable {s s' : State}

theorem chan_eraseTiming (s : State) (a : Axis) : s.eraseTiming.chan a = (s.chan a).eraseTiming := by
  cases a <;> rfl

theorem setChan_eraseTiming (s : State) (a : Axis) (c : Channel) :
    (s.setChan a c).eraseTiming = s.eraseTiming.setChan a c.eraseTiming := by cases a <;> rfl

theorem eraseTiming_chan (hs : s.eraseTiming = s'.eraseTiming) (a : Axis) :
    (s.chan a).eraseTiming = (s'.chan a).eraseTiming := by
  rw [← chan_eraseTiming, hs, chan_eraseTiming]

theorem eraseTiming_setChan (hs : s.eraseTiming = s'.eraseTiming) (a : Axis) {c c' : Channel}
    (hc : c.eraseTiming = c'.eraseTiming) :
    (s.setChan a c).eraseTiming = (s'.setChan a c').eraseTiming := by
  rw [setChan_eraseTiming, setChan_eraseTiming, hs, hc]

theorem eraseTiming_reply (hs : s.eraseTiming = s'.eraseTiming) (fid : Word) (st : Status) (p : Payload) :
    (s.reply fid st p).eraseTiming = (s'.reply fid st p).eraseTiming :=
  congrArg (fun u => State.reply u fid st p) hs

theorem eraseTiming_board (hs : s.eraseTiming = s'.eraseTiming) (board : BoardState) :
    State.eraseTiming { s with board := board } = State.eraseTiming { s' with board := board } :=
  congrArg (fun u => { u with board := board }) hs

theorem eraseTiming_allIdle (hs : s.eraseTiming = s'.eraseTiming) : s.allIdle = s'.allIdle :=
  (congrArg State.allIdle hs :)

theorem eraseTiming_boardIdleIfAllIdle (hs : s.eraseTiming = s'.eraseTiming) :
    (boardIdleIfAllIdle s).eraseTiming = (boardIdleIfAllIdle s').eraseTiming := by
  have hboard : s.board = s'.board := (congrArg State.board hs :)
  rw [boardIdleIfAllIdle_eq, boardIdleIfAllIdle_eq, eraseTiming_allIdle hs, hboard]
  exact eraseTiming_board hs _

theorem eraseTiming_homed (hs : s.eraseTiming = s'.eraseTiming) (a : Axis) (m : HomingMode) {c c' : Channel}
    (hc : c.eraseTiming = c'.eraseTiming) :
    (s.homed a m c).eraseTiming = (s'.homed a m c').eraseTiming := by
  have hset := eraseTiming_setChan hs a hc
  have hport : s.portIn = s'.portIn := (congrArg State.portIn hs :)
  cases m with
  | home =>
    rw [homed_home_eq, homed_home_eq]
    exact congrArg (fun u => { u with board := .pumpRunning, pollArmed := true, sessAxis := a, sessMode := .home })
      hset
  | port =>
    rw [homed_port_eq, homed_port_eq, hport]
    exact congrArg (fun u => { u with
      board := .pumpRunning, pollArmed := true, sessAxis := a, sessMode := .port, prevPort := s'.portIn }) hset

/-- The timing of a stimulus is its elapsed time. -/
def Stimulus.eraseTiming (e : Stimulus) : Stimulus := { e with dt := 0 }

/-- Entering a transition changes, but for the timing, the inputs and the script. -/
theorem enter_eraseTiming (s : State) (e : Stimulus) (rest : List Stimulus) :
    (s.enter e rest).eraseTiming = { s.eraseTiming with
      homeIn := e.eraseTiming.home, portIn := e.eraseTiming.port
      script := rest.map Stimulus.eraseTiming } := by
  simp [State.enter, State.advance, State.eraseTiming, Channel.eraseTiming_advance, Stimulus.eraseTiming]

/-- The guards of a transition are no timing. -/
theorem sameGuards_of_eraseTiming (hs : s.eraseTiming = s'.eraseTiming) : SameGuards s s' := by
  refine ⟨(congrArg State.seq hs.symm :), (congrArg State.rx hs.symm :), fun a => ?_,
    (congrArg State.pollArmed hs.symm :)⟩
  obtain ⟨-, -, -, hmotion, -⟩ := Channel.eraseTiming_eq_iff.1 (eraseTiming_chan hs a)
  exact hmotion.symm

variable {t : State} {i : Instr} {e : Event}

/-- A command leads from two states equal but for the timing to two such states. -/
theorem Executes.eraseTiming (h : Executes s i t) (hs : s.eraseTiming = s'.eraseTiming) :
    ∃ t', Executes s' i t' ∧ t.eraseTiming = t'.eraseTiming := by
  have hchan := eraseTiming_chan hs
  have hconf {a : Axis} {b : Bool} (hc : (s.chan a).configured = b) : (s'.chan a).configured = b := by
    obtain ⟨-, hconfigured, -⟩ := Channel.eraseTiming_eq_iff.1 (hchan a)
    rwa [← hconfigured]
  have hboard : s'.board = s.board := (congrArg State.board hs.symm :)
  have hhome : s'.homeIn = s.homeIn := (congrArg State.homeIn hs.symm :)
  have hport : s'.portIn = s.portIn := (congrArg State.portIn hs.symm :)
  have hdraws : s'.draws = s.draws := (congrArg State.draws hs.symm :)
  have hhoming {a : Axis} {w : Word} {m : HomingMode} {d d' : Direction}
      (hi : HomingCommand s a i w m d d') : HomingCommand s' a i w m d d' := by
    obtain ⟨-, -, hdir, -⟩ := Channel.eraseTiming_eq_iff.1 (hchan a)
    exact hi.congr hdir.symm fun _ => ⟨hhome, hport⟩
  cases h with
  | invalidAxis hi hw hp => exact ⟨_, .invalidAxis hi hw hp, eraseTiming_reply hs _ _ _⟩
  | invalidPeriod hp => exact ⟨_, .invalidPeriod hp, eraseTiming_reply hs _ _ _⟩
  | @configure w p a hp hw =>
    exact ⟨_, .configure hp hw, eraseTiming_reply (eraseTiming_setChan hs a
      (congrArg (fun c => { c with period := p, configured := true }) (hchan a))) _ _ _⟩
  | @status w a rate draws hw hf =>
    obtain ⟨hperiod, hconfigured, -, hmotion, hsteps, -⟩ := Channel.eraseTiming_eq_iff.1 (hchan a)
    refine ⟨_, .status hw (flowField_congr hboard hconfigured.symm hperiod.symm hdraws hf), ?_⟩
    refine (eraseTiming_reply (s' := { s' with draws := draws })
      (congrArg (fun u => { u with draws := draws }) hs) _ _ _).trans ?_
    rw [hmotion, hsteps, ← hboard, ← hhome, ← hport]
  | sysInfo => exact ⟨_, .sysInfo, eraseTiming_reply hs _ _ _⟩
  | @stop w a hw =>
    exact ⟨_, .stop hw, eraseTiming_reply (eraseTiming_boardIdleIfAllIdle (eraseTiming_setChan hs a
      (c := (s.chan a).stopped) (c' := (s'.chan a).stopped) (congrArg Channel.stopped (hchan a)))) _ _ _⟩
  | @run w a hw hc =>
    exact ⟨_, .run hw (hconf hc), eraseTiming_reply (eraseTiming_board (eraseTiming_setChan hs a
      (Channel.eraseTiming_run (hchan a))) _) _ _ _⟩
  | runUnconfigured hw hc => exact ⟨_, .runUnconfigured hw (hconf hc), eraseTiming_reply hs _ _ _⟩
  | atHome hw hh => exact ⟨_, .atHome hw (by rwa [hhome, hport]), eraseTiming_reply hs _ _ _⟩
  | @homing i w a m d d' hi hw hc =>
    exact ⟨_, .homing (hhoming hi) hw (hconf hc), eraseTiming_reply (eraseTiming_homed hs a m
      (Channel.eraseTiming_run (congrArg (fun c => { c with dir := d }) (hchan a)))) _ _ _⟩
  | @homingUnconfigured i w a m d d' hi hw hc =>
    exact ⟨_, .homingUnconfigured (hhoming hi) hw (hconf hc), eraseTiming_reply (eraseTiming_setChan hs a
      (congrArg (fun c => { c with dir := d' }) (hchan a))) _ _ _⟩

/-- And so does every transition. -/
theorem Performs.eraseTiming (h : Performs s e t) (hs : s.eraseTiming = s'.eraseTiming) :
    ∃ t', Performs s' e t' ∧ t.eraseTiming = t'.eraseTiming := by
  obtain ⟨hseq, hrx, hmotion, hpoll⟩ := sameGuards_of_eraseTiming hs
  have haxis : s'.sessAxis = s.sessAxis := (congrArg State.sessAxis hs.symm :)
  have hdetect : detect s' = detect s := (congrArg detect hs.symm :)
  cases h with
  | listen hq =>
    exact ⟨_, .listen (hseq.trans hq),
      congrArg (fun u => { u with board := .waitForConnection, seq := .listening }) hs⟩
  | accept hq =>
    exact ⟨_, .accept (hseq.trans hq), congrArg (fun u => { u with board := .idle, seq := .opened }) hs⟩
  | disconnect hq =>
    exact ⟨_, .disconnect (hseq.trans hq),
      congrArg (fun u => { u with board := .waitForConnection, seq := .preListen, rx := [] }) hs⟩
  | @send bytes hq =>
    rw [← hrx]
    exact ⟨_, .send (hseq.trans hq), congrArg (fun u => { u with rx := s'.rx ++ bytes }) hs⟩
  | @command i tail t hq hd hx =>
    obtain ⟨t', hx', ht⟩ := hx.eraseTiming (s' := { s' with rx := tail })
      (congrArg (fun u => { u with rx := tail }) hs)
    exact ⟨t', .command (hseq.trans hq) (hrx ▸ hd) hx', ht⟩
  | @unsupported fid tail hq hd =>
    exact ⟨_, .unsupported (hseq.trans hq) (hrx ▸ hd),
      eraseTiming_reply (congrArg (fun u => { u with rx := tail }) hs) _ _ _⟩
  | @tick a hm =>
    exact ⟨_, .tick ((hmotion a).trans hm),
      eraseTiming_setChan hs a (Channel.eraseTiming_tick (eraseTiming_chan hs a))⟩
  | pollStopped ha hm =>
    exact ⟨_, .pollStopped (hpoll.trans ha) (by rw [haxis, hmotion, hm]),
      congrArg (fun u => { u with pollArmed := false }) hs⟩
  | pollEdge ha hm hd =>
    refine ⟨_, .pollEdge (hpoll.trans ha) (by rw [haxis, hmotion, hm]) (by rwa [hdetect]), ?_⟩
    rw [hdetect, haxis]
    exact eraseTiming_boardIdleIfAllIdle (eraseTiming_setChan
      (congrArg (fun u => { u with
        prevPort := (detect s).2, pollArmed := false, sessAxis := s.sessAxis }) hs) _
      (c := (s.chan s.sessAxis).halted) (c' := (s'.chan s.sessAxis).halted)
      (congrArg Channel.halted (eraseTiming_chan hs _)))
  | pollQuiet ha hm hd =>
    refine ⟨_, .pollQuiet (hpoll.trans ha) (by rw [haxis, hmotion, hm]) (by rwa [hdetect]), ?_⟩
    rw [hdetect]
    exact congrArg (fun u => { u with prevPort := (detect s).2 }) hs
  | reset =>
    exact ⟨_, .reset, congrArg (fun u => { State.reset with
      homeIn := u.homeIn, portIn := u.portIn, tx := u.tx, script := u.script, draws := u.draws }) hs⟩

/-- A transition answers alike in the two states. -/
theorem perform_eraseTiming (hs : s.eraseTiming = s'.eraseTiming) (e : Event) :
    eraseTimingOfResult (perform e s) = eraseTimingOfResult (perform e s') := by
  cases hr : perform e s with
  | next t =>
    obtain ⟨t', ht', ht⟩ := (perform_next.1 hr).eraseTiming hs
    rw [perform_next.2 ht', eraseTimingOfResult, eraseTimingOfResult, ht]
  | fault r => exact nomatch r
  | refused r => rw [(sameGuards_of_eraseTiming hs).perform_refused hr]

end

/-- Settles O53: states equal but for the timing have such scripts, and enter a transition as such. -/
theorem timingLayerIsNeverRead : Obligations.TimingLayerIsNeverRead := by
  intro s s' hs
  have hscript : s.script.map Stimulus.eraseTiming = s'.script.map Stimulus.eraseTiming :=
    (congrArg State.script hs :)
  cases hcons : s.script with
  | nil =>
    have hnil : s'.script = [] := by simpa [hcons] using hscript.symm
    have hseq : s.seq = s'.seq := (congrArg State.seq hs :)
    rw [step_nil s hcons, step_nil s' hnil, idleStep, idleStep, hseq]
    cases s'.seq with
    | preListen => exact perform_eraseTiming hs .listen
    | listening => exact congrArg Host.Outcome.next hs
    | opened => exact congrArg Host.Outcome.next hs
  | cons e rest =>
    obtain ⟨e', rest', hcons'⟩ : ∃ e' rest', s'.script = e' :: rest' := by
      cases h : s'.script with
      | nil => simp [hcons, h] at hscript
      | cons e' rest' => exact ⟨e', rest', rfl⟩
    obtain ⟨he, hrest⟩ : e.eraseTiming = e'.eraseTiming ∧
        rest.map Stimulus.eraseTiming = rest'.map Stimulus.eraseTiming := by
      simpa [hcons, hcons'] using hscript
    have hevent : e.event = e'.event := (congrArg Stimulus.event he :)
    rw [step_cons s e rest hcons, step_cons s' e' rest' hcons', hevent]
    exact perform_eraseTiming (by rw [enter_eraseTiming, enter_eraseTiming, hs, he, hrest]) _

end Sys2Proof.Machine
end

section
/-! PROOFS. The two statements about the session's race with STOP_STEPPER. Both follow a script of two or three
transitions; what each leaves is said once, with the stopped axis and the board in one relation. -/

namespace Sys2Proof.Machine

/-! ## A transition that stops one axis -/

/-- From `s` to `t` axis `a` was left with the registers `c`, but for the timing, and the board rule applied; the
other axes, the connection and the session's target and mode are as they were. -/
structure StopsAxis (s t : State) (a : Axis) (c : Channel) : Prop where
  axis : (t.chan a).eraseTiming = c.eraseTiming
  others : ∀ b, b ≠ a → (t.chan b).eraseTiming = (s.chan b).eraseTiming
  boardIdle : (∀ b, b ≠ a → (s.chan b).motion = .idle) → t.board = .idle
  boardKept : (∃ b, b ≠ a ∧ (s.chan b).motion = .running) → t.board = s.board
  seq : t.seq = s.seq
  sessAxis : t.sessAxis = s.sessAxis
  sessMode : t.sessMode = s.sessMode
  draws : t.draws = s.draws

section
variable {s t u : State} {a : Axis} {c c' : Channel}

theorem Channel.motion_of_eraseTiming (h : c.eraseTiming = c'.eraseTiming) : c.motion = c'.motion := by
  obtain ⟨-, -, -, hmotion, -⟩ := Channel.eraseTiming_eq_iff.1 h
  exact hmotion

theorem Channel.configured_of_eraseTiming (h : c.eraseTiming = c'.eraseTiming) :
    c.configured = c'.configured := by
  obtain ⟨-, hconfigured, -⟩ := Channel.eraseTiming_eq_iff.1 h
  exact hconfigured

/-- Writing an idle channel in a state entered from `s`, and then the board rule, is such a transition. -/
theorem stopsAxis_setChan {e : Stimulus} {rest : List Stimulus} (hc : c.motion = .idle)
    (hchan : ∀ b, u.chan b = (s.enter e rest).chan b) (hboard : u.board = s.board) (hseq : u.seq = s.seq)
    (haxis : u.sessAxis = s.sessAxis) (hmode : u.sessMode = s.sessMode) (hdraws : u.draws = s.draws) :
    StopsAxis s (boardIdleIfAllIdle (u.setChan a c)) a c where
  axis := by simp
  others b hb := by
    rw [chan_boardIdleIfAllIdle, chan_setChan_ne _ _ _ _ hb, hchan, chan_enter, Channel.eraseTiming_advance]
  boardIdle hidle := (boardIdleIfAllIdle_setChan_board u a c hc).1 (by simpa [hchan, chan_enter] using hidle)
  boardKept hrunning := by
    rw [← hboard]
    exact (boardIdleIfAllIdle_setChan_board u a c hc).2 (by simpa [hchan, chan_enter] using hrunning)
  seq := by simp [hseq]
  sessAxis := by simp [haxis]
  sessMode := by simp [hmode]
  draws := by simp [hdraws]

/-- A second stop of the axis leaves what it writes. -/
theorem StopsAxis.trans (h : StopsAxis s t a c) (h' : StopsAxis t u a c') : StopsAxis s u a c' where
  axis := h'.axis
  others b hb := (h'.others b hb).trans (h.others b hb)
  boardIdle hidle := h'.boardIdle fun b hb => (Channel.motion_of_eraseTiming (h.others b hb)).trans (hidle b hb)
  boardKept hrunning := by
    obtain ⟨b, hb, hm⟩ := hrunning
    exact (h'.boardKept ⟨b, hb, (Channel.motion_of_eraseTiming (h.others b hb)).trans hm⟩).trans
      (h.boardKept ⟨b, hb, hm⟩)
  seq := h'.seq.trans h.seq
  sessAxis := h'.sessAxis.trans h.sessAxis
  sessMode := h'.sessMode.trans h.sessMode
  draws := h'.draws.trans h.draws

/-- What only passes time, and writes none of these registers, may follow. -/
theorem StopsAxis.enter (h : StopsAxis s t a c) {e : Stimulus} {rest : List Stimulus}
    (hc : c.eraseTiming = c'.eraseTiming) : StopsAxis s { t.enter e rest with pollArmed := false } a c' where
  axis := by rw [← hc, ← h.axis, chan_with_pollArmed, chan_enter, Channel.eraseTiming_advance]
  others b hb := by rw [← h.others b hb, chan_with_pollArmed, chan_enter, Channel.eraseTiming_advance]
  boardIdle := h.boardIdle
  boardKept := h.boardKept
  seq := h.seq
  sessAxis := h.sessAxis
  sessMode := h.sessMode
  draws := h.draws

end

/-! ## The transitions of the two scripts -/

/-- On an open connection a `command` stimulus runs the encoded command at the head of the stream. -/
theorem step_encoded {s t : State} {e : Stimulus} {rest : List Stimulus} {i : Instr} {tail : List Byte}
    (hs : s.script = e :: rest) (he : e.event = .command) (hq : s.seq = .opened)
    (hrx : s.rx = encode i ++ tail) (hx : Executes { s.enter e rest with rx := tail } i t) :
    step s = .next t := by
  have hd : decode s.rx = .command i tail := by rw [hrx]; exact decode_encodeWith i 0 tail
  rw [step_next hs, he]
  exact .command hq hd hx

/-- What a step that serves a command of no homing class leaves: it takes the stimulus `e` and the frame before
`tail`, appends the reply, and keeps the connection and the session. -/
structure Served (s t : State) (e : Stimulus) (rest : List Stimulus) (tail : List Byte) (r : Reply) : Prop where
  script : t.script = rest
  seq : t.seq = .opened
  rx : t.rx = tail
  tx : t.tx = s.tx ++ [r]
  homeIn : t.homeIn = e.home
  portIn : t.portIn = e.port
  pollArmed : t.pollArmed = s.pollArmed
  sessAxis : t.sessAxis = s.sessAxis
  sessMode : t.sessMode = s.sessMode
  prevPort : t.prevPort = s.prevPort

section
variable {s : State} {e : Stimulus} {rest : List Stimulus} {tail : List Byte} {w : Word} {a : Axis}
  (hs : s.script = e :: rest)
include hs

/-- A served STOP_STEPPER (R82). -/
theorem step_stopStepper (hw : w.toNat = a.index) (he : e.event = .command) (hq : s.seq = .opened)
    (hrx : s.rx = encode (.stopStepper w) ++ tail) :
    ∃ t, step s = .next t ∧ Served s t e rest tail ⟨2, .ok, .ack⟩ ∧ StopsAxis s t a (s.chan a).stopped := by
  have hstops : StopsAxis s (boardIdleIfAllIdle (State.setChan { s.enter e rest with rx := tail } a
      (State.chan { s.enter e rest with rx := tail } a).stopped)) a (s.chan a).stopped := by
    have h := stopsAxis_setChan (s := s) (e := e) (rest := rest) (u := { s.enter e rest with rx := tail })
      (a := a) (c := (State.chan { s.enter e rest with rx := tail } a).stopped) rfl (fun b => by simp) rfl rfl rfl
      rfl rfl
    refine { h with axis := h.axis.trans ?_ }
    simp [chan_enter, Channel.stopped, Channel.eraseTiming]
  exact ⟨_, step_encoded hs he hq hrx (.stop hw), by constructor <;> simp [hq], { hstops with }⟩

/-- A served RUN_STEPPER of a configured axis leaves it running, and the board PUMP_RUNNING (R81). -/
theorem step_runStepper (hw : w.toNat = a.index) (hc : (s.chan a).configured = true) (he : e.event = .command)
    (hq : s.seq = .opened) (hrx : s.rx = encode (.runStepper w) ++ tail) :
    ∃ t, step s = .next t ∧ Served s t e rest tail ⟨1, .ok, .ack⟩ ∧ (t.chan a).motion = .running ∧
      t.board = .pumpRunning := by
  have hc' : (State.chan { s.enter e rest with rx := tail } a).configured = true := by simpa [chan_enter] using hc
  exact ⟨_, step_encoded hs he hq hrx (.run hw hc'), by constructor <;> simp [hq], by simp, by simp⟩

/-- A poll that sees the edge of its running target (R74). -/
theorem step_pollEdge (he : e.event = .poll) (ha : s.pollArmed = true)
    (hm : (s.chan s.sessAxis).motion = .running)
    (hedge : s.sessMode = .home ∧ e.home = .low ∧ e.port = .low ∨
      s.sessMode = .port ∧ s.prevPort = .high ∧ e.port = .low) :
    ∃ t, step s = .next t ∧ StopsAxis s t s.sessAxis (s.chan s.sessAxis).halted ∧ t.pollArmed = false ∧
      t.tx = s.tx ∧ t.rx = s.rx ∧ t.script = rest ∧
      t.prevPort = if s.sessMode = .port then .low else s.prevPort := by
  have hp := Performs.pollEdge (s := s.enter e rest) ha (by simpa [chan_enter] using hm)
    (detect_edge (by simpa using hedge))
  refine ⟨_, (step_next hs).2 (he ▸ hp), ?_, by simp, by simp, by simp, by simp, ?_⟩
  · have h := stopsAxis_setChan (s := s) (e := e) (rest := rest)
      (u := { s.enter e rest with
        prevPort := (detect (s.enter e rest)).2, pollIn := Config.pollInterval, pollArmed := false })
      (a := s.sessAxis) (c := ((s.enter e rest).chan s.sessAxis).halted) rfl (fun b => by simp) rfl rfl rfl rfl rfl
    refine { h with axis := h.axis.trans ?_ }
    simp [chan_enter, Channel.halted, Channel.eraseTiming]
  · rw [boardIdleIfAllIdle_prevPort, setChan_prevPort, detect_prevPort]
    obtain ⟨hmode, -, -⟩ | ⟨hmode, -, hport⟩ := hedge
    · simp [hmode]
    · simp [hmode, hport]

end

/-- Settles O40: stop, run and edge, each enabled by what the one before leaves. -/
theorem staleSessionComesAlive : Obligations.StaleSessionComesAlive := by
  rintro s a w e₁ e₂ e₃ rest tail hq hw hc ha rfl hedge hs he₁ he₂ he₃ hrx
  obtain ⟨t₁, h₁, hserved₁, hstops⟩ := step_stopStepper hs hw he₁ hq (by rw [hrx, List.append_assoc])
  have hc₁ : (t₁.chan s.sessAxis).configured = true := (Channel.configured_of_eraseTiming hstops.axis).trans hc
  obtain ⟨t₂, h₂, hserved₂, hrunning, hboard⟩ :=
    step_runStepper hserved₁.script hw hc₁ he₂ hserved₁.seq hserved₁.rx
  have harmed₁ : t₁.pollArmed = true := hserved₁.pollArmed.trans ha
  have harmed₂ : t₂.pollArmed = true := hserved₂.pollArmed.trans harmed₁
  have haxis : t₂.sessAxis = s.sessAxis := hserved₂.sessAxis.trans hserved₁.sessAxis
  have hmode : t₂.sessMode = s.sessMode := hserved₂.sessMode.trans hserved₁.sessMode
  have hprev : t₂.prevPort = s.prevPort := hserved₂.prevPort.trans hserved₁.prevPort
  obtain ⟨t₃, h₃, hedged, hdisarmed, htx, -⟩ := step_pollEdge hserved₂.script he₃ harmed₂
    (by rwa [haxis]) (by rwa [hmode, hprev])
  refine ⟨t₁, t₂, t₃, h₁, h₂, h₃, Channel.motion_of_eraseTiming hstops.axis, harmed₁, hrunning, harmed₂, hboard,
    haxis ▸ Channel.motion_of_eraseTiming hedged.axis, hdisarmed, ?_⟩
  rw [htx, hserved₂.tx, hserved₁.tx, List.append_assoc]
  rfl

/-! ## The race of a poll with a stop -/

theorem run_two {s t u : State} (h₁ : step s = .next t) (h₂ : step t = .next u) :
    Host.Core.run Sys2Proof.core 2 s = .next u :=
  (run_succ h₁).trans (run_succ h₂)

/-- What both orders leave of `s`, with the home sensor at `h` and the port sensor low: `t`, but for the timing
and `prevPort`. -/
structure Raced (s : State) (a : Axis) (h : Level) (rest : List Stimulus) (tail : List Byte) (t : State) :
    Prop where
  stops : StopsAxis s t a (s.chan a).stopped
  pollArmed : t.pollArmed = false
  homeIn : t.homeIn = h
  portIn : t.portIn = .low
  rx : t.rx = tail
  tx : t.tx = s.tx ++ [⟨2, .ok, .ack⟩]
  script : t.script = rest

section
variable {s t u : State} {a : Axis} {w : Word} {h : Level} {dt₁ dt₂ : Time} {rest : List Stimulus}
  {tail : List Byte}

theorem StopsAxis.board_eq {c c' : Channel} (ht : StopsAxis s t a c) (hu : StopsAxis s u a c') :
    t.board = u.board := by
  by_cases hrunning : ∃ b, b ≠ a ∧ (s.chan b).motion = .running
  · rw [ht.boardKept hrunning, hu.boardKept hrunning]
  · have hidle : ∀ b, b ≠ a → (s.chan b).motion = .idle := fun b hb => by
      cases hm : (s.chan b).motion with
      | idle => rfl
      | running => exact absurd ⟨b, hb, hm⟩ hrunning
    rw [ht.boardIdle hidle, hu.boardIdle hidle]

theorem Raced.eraseTiming_eq (ht : Raced s a h rest tail t) (hu : Raced s a h rest tail u) :
    { t.eraseTiming with prevPort := u.prevPort } = u.eraseTiming := by
  have hchan (b : Axis) : (t.chan b).eraseTiming = (u.chan b).eraseTiming := by
    by_cases hb : b = a
    · rw [hb, ht.stops.axis, hu.stops.axis]
    · rw [ht.stops.others b hb, hu.stops.others b hb]
  have hx : t.x.eraseTiming = u.x.eraseTiming := hchan .x
  have hy : t.y.eraseTiming = u.y.eraseTiming := hchan .y
  have hz : t.z.eraseTiming = u.z.eraseTiming := hchan .z
  simp only [State.eraseTiming, hx, hy, hz, ht.stops.board_eq hu.stops, ht.stops.seq, hu.stops.seq,
    ht.stops.sessAxis, hu.stops.sessAxis, ht.stops.sessMode, hu.stops.sessMode, ht.stops.draws, hu.stops.draws,
    ht.pollArmed, hu.pollArmed, ht.homeIn, hu.homeIn, ht.portIn, hu.portIn, ht.rx, hu.rx, ht.tx, hu.tx,
    ht.script, hu.script]

/-- The script that `s` had is no part of it. -/
theorem Raced.of_script {script : List Stimulus} (ht : Raced { s with script := script } a h rest tail t) :
    Raced s a h rest tail t :=
  ⟨⟨ht.stops.axis, ht.stops.others, ht.stops.boardIdle, ht.stops.boardKept, ht.stops.seq, ht.stops.sessAxis,
    ht.stops.sessMode, ht.stops.draws⟩, ht.pollArmed, ht.homeIn, ht.portIn, ht.rx, ht.tx, ht.script⟩

variable (hq : s.seq = .opened) (hw : w.toNat = a.index) (ha : s.pollArmed = true) (haxis : s.sessAxis = a)
  (hrx : s.rx = encode (.stopStepper w) ++ tail)
include hq hw ha haxis hrx

/-- The poll first: it sees the edge, and the command then stops the axis again. -/
theorem run_poll_stop (hs : s.script = ⟨dt₁, h, .low, .poll⟩ :: ⟨dt₂, h, .low, .command⟩ :: rest)
    (hm : (s.chan a).motion = .running)
    (hedge : s.sessMode = .home ∧ h = .low ∨ s.sessMode = .port ∧ s.prevPort = .high) :
    ∃ t, Host.Core.run Sys2Proof.core 2 s = .next t ∧ Raced s a h rest tail t ∧
      t.prevPort = if s.sessMode = .port then .low else s.prevPort := by
  subst haxis
  obtain ⟨t₁, h₁, hstops₁, harmed, htx, hrx₁, hscript, hprev⟩ :=
    step_pollEdge hs rfl ha hm (by simpa using hedge)
  obtain ⟨t₂, h₂, hserved, hstops₂⟩ :=
    step_stopStepper hscript hw rfl (hstops₁.seq.trans hq) (hrx₁.trans hrx)
  have hstops := hstops₁.trans hstops₂
  refine ⟨t₂, run_two h₁ h₂, ?_, hserved.prevPort.trans hprev⟩
  refine ⟨{ hstops with axis := hstops.axis.trans ?_ }, hserved.pollArmed.trans harmed, hserved.homeIn,
    hserved.portIn, hserved.rx, by rw [hserved.tx, htx], hserved.script⟩
  exact (congrArg Channel.stopped hstops₁.axis :)

/-- The command first: the poll then finds its target stopped, and only disarms itself (R71). -/
theorem run_stop_poll (hs : s.script = ⟨dt₁, h, .low, .command⟩ :: ⟨dt₂, h, .low, .poll⟩ :: rest) :
    ∃ t, Host.Core.run Sys2Proof.core 2 s = .next t ∧ Raced s a h rest tail t ∧ t.prevPort = s.prevPort := by
  obtain ⟨t₁, h₁, hserved, hstops⟩ := step_stopStepper hs hw rfl hq hrx
  have hidle : (t₁.chan t₁.sessAxis).motion = .idle := by
    rw [hserved.sessAxis, haxis]
    exact Channel.motion_of_eraseTiming hstops.axis
  have h₂ := (pollOfStoppedTarget t₁ _ _ hserved.script rfl).2 (hserved.pollArmed.trans ha) hidle
  exact ⟨_, run_two h₁ h₂, ⟨hstops.enter rfl, rfl, rfl, rfl, hserved.rx, hserved.tx, rfl⟩, hserved.prevPort⟩

end

/-- Settles O41: both orders leave what `Raced` says, and it leaves nothing open but `prevPort`. -/
theorem pollAndStopCommute : Obligations.PollAndStopCommute := by
  intro s a w h dt₁ dt₂ rest tail hq hw ha haxis hm hrx hedge
  obtain ⟨t, ht, hraced, hprev⟩ := run_poll_stop (dt₁ := dt₁) (dt₂ := dt₂) (rest := rest) (s := { s with
    script := ⟨dt₁, h, .low, .poll⟩ :: ⟨dt₂, h, .low, .command⟩ :: rest }) hq hw ha haxis hrx rfl
    (by simpa using hm) hedge
  obtain ⟨u, hu, hraced', hprev'⟩ := run_stop_poll (dt₁ := dt₁) (dt₂ := dt₂) (rest := rest) (s := { s with
    script := ⟨dt₁, h, .low, .command⟩ :: ⟨dt₂, h, .low, .poll⟩ :: rest }) hq hw ha haxis hrx rfl
  have herase := hraced.of_script.eraseTiming_eq hraced'.of_script
  obtain ⟨-, -, -, -, hsteps, -⟩ := Channel.eraseTiming_eq_iff.1 hraced.stops.axis
  refine ⟨t, u, ht, hu, fun hmode => ?_, fun hmode => ?_, hraced.pollArmed,
    Channel.motion_of_eraseTiming hraced.stops.axis, hsteps⟩
  · have hsame : u.prevPort = t.prevPort := by rw [hprev', hprev, hmode]; rfl
    rw [← herase, hsame]
    rfl
  · have hhigh : s.prevPort = .high := by
      obtain ⟨hhome, -⟩ | ⟨-, hhigh⟩ := hedge
      · exact absurd (hhome.symm.trans hmode) nofun
      · exact hhigh
    have huhigh : u.prevPort = .high := hprev'.trans hhigh
    exact ⟨hprev.trans (if_pos hmode), huhigh, huhigh ▸ herase⟩

end Sys2Proof.Machine
end

section
/-! PROOFS. The period operand and the rounding of the status reply: a datum's value grows with its bit pattern,
so the comparisons with the bounds are comparisons of words; and rounding a datum's own value gives it back. -/

namespace Sys2Proof.Machine

/-! ## The fields of a datum as parts of its number -/

section
variable (p : Word)

theorem expField_eq : expField p = p.toNat / 2 ^ 23 % 2 ^ 8 := by
  simp [expField, BitVec.extractLsb'_toNat, Nat.shiftRight_eq_div_pow]

theorem fracField_eq : fracField p = p.toNat % 2 ^ 23 := by
  simp [fracField, BitVec.extractLsb'_toNat]

theorem signBit_eq : signBit p = decide (2 ^ 31 ≤ p.toNat) := by
  have h := p.isLt
  rw [signBit, BitVec.getLsbD, Nat.testBit_eq_decide_div_mod_eq]
  simp only [decide_eq_decide]
  omega

theorem signBit_eq_false_iff : signBit p = false ↔ p.toNat < 2 ^ 31 := by
  rw [signBit_eq, decide_eq_false_iff_not, not_le]

/-- The significand of a datum, in units of its last place. -/
def significand : Nat := if expField p = 0 then fracField p else 2 ^ 23 + fracField p

theorem magnitude_eq : magnitude p = significand p * 2 ^ (expField p - 1) := by
  by_cases h : expField p = 0 <;> simp [magnitude, significand, h]

/-- A number below 2^31 is the bit pattern of the datum whose significand and exponent it holds. -/
theorem toNat_mod_eq : p.toNat % 2 ^ 31 = (expField p - 1) * 2 ^ 23 + significand p := by
  have he := expField_eq p
  have hf := fracField_eq p
  by_cases h : expField p = 0
  · rw [significand, if_pos h]
    omega
  · rw [significand, if_neg h]
    omega

theorem significand_bounds : significand p < 2 ^ 24 ∧ (2 ^ 23 ≤ significand p ∨ expField p - 1 = 0) := by
  have hf := fracField_eq p
  by_cases h : expField p = 0
  · rw [significand, if_pos h]
    omega
  · rw [significand, if_neg h]
    omega

end

/-! ## A datum's value grows with its bit pattern -/

/-- The magnitude of the datum with the bit pattern `n`, sign bit clear. -/
def magnitudeOf (n : Nat) : Nat :=
  if n / 2 ^ 23 = 0 then n % 2 ^ 23 else (2 ^ 23 + n % 2 ^ 23) * 2 ^ (n / 2 ^ 23 - 1)

theorem magnitude_of_signBit {p : Word} (h : signBit p = false) : magnitude p = magnitudeOf p.toNat := by
  have hlt := (signBit_eq_false_iff p).1 h
  have he : expField p = p.toNat / 2 ^ 23 := by rw [expField_eq]; omega
  rw [magnitude, magnitudeOf, he, fracField_eq]

/-- The next bit pattern is one unit of the last place on, across a change of exponent too. -/
theorem magnitudeOf_strictMono : StrictMono magnitudeOf := by
  refine strictMono_nat_of_lt_succ fun n => ?_
  obtain ⟨E, F, hF, rfl⟩ : ∃ E F, F < 2 ^ 23 ∧ n = 2 ^ 23 * E + F :=
    ⟨n / 2 ^ 23, n % 2 ^ 23, Nat.mod_lt _ (by norm_num), (Nat.div_add_mod n (2 ^ 23)).symm⟩
  have hE : (2 ^ 23 * E + F) / 2 ^ 23 = E := by omega
  have hFmod : (2 ^ 23 * E + F) % 2 ^ 23 = F := by omega
  rw [magnitudeOf, magnitudeOf, hE, hFmod]
  by_cases hcarry : F + 1 < 2 ^ 23
  · have hE' : (2 ^ 23 * E + F + 1) / 2 ^ 23 = E := by omega
    have hF' : (2 ^ 23 * E + F + 1) % 2 ^ 23 = F + 1 := by omega
    rw [hE', hF']
    split_ifs
    · omega
    · refine Nat.mul_lt_mul_of_pos_right ?_ (by positivity)
      omega
  · have hE' : (2 ^ 23 * E + F + 1) / 2 ^ 23 = E + 1 := by omega
    have hF' : (2 ^ 23 * E + F + 1) % 2 ^ 23 = 0 := by omega
    rw [hE', hF', if_neg (Nat.add_one_ne_zero E)]
    cases E with
    | zero => rwa [if_pos rfl, Nat.add_sub_cancel, pow_zero, mul_one]
    | succ k =>
      rw [if_neg (Nat.add_one_ne_zero k), Nat.add_sub_cancel, Nat.add_sub_cancel, pow_succ' 2 k, ← mul_assoc]
      refine Nat.mul_lt_mul_of_pos_right ?_ (by positivity)
      omega

section
variable {p : Word} {x : Int} {m : Nat}

theorem scaledValue_of_signBit (h : signBit p = false) : scaledValue p = magnitudeOf p.toNat := by
  rw [scaledValue, h, magnitude_of_signBit h]
  rfl

theorem scaledValue_nonpos (h : signBit p = true) : scaledValue p ≤ 0 := by
  rw [scaledValue, h]
  simp

/-- Where a bound falls among the data: it lies at or above the datum `m` and below the next. -/
def CutAt (x : Int) (m : Nat) : Prop := (magnitudeOf m : Int) ≤ x ∧ x < magnitudeOf (m + 1)

theorem CutAt.nonneg (h : CutAt x m) : 0 ≤ x := (Int.natCast_nonneg _).trans h.1

/-- Above the bound are the data after `m`. -/
theorem CutAt.lt_scaledValue_iff (h : CutAt x m) : x < scaledValue p ↔ signBit p = false ∧ m < p.toNat := by
  cases hsign : signBit p with
  | true =>
    have hle := (scaledValue_nonpos hsign).trans h.nonneg
    simp [hle]
  | false =>
    rw [scaledValue_of_signBit hsign]
    refine ⟨fun hlt => ⟨rfl, ?_⟩, fun ⟨_, hm⟩ => ?_⟩
    · have hlt' := h.1.trans_lt hlt
      exact magnitudeOf_strictMono.lt_iff_lt.1 (by exact_mod_cast hlt')
    · have hle : magnitudeOf (m + 1) ≤ magnitudeOf p.toNat := magnitudeOf_strictMono.monotone hm
      exact h.2.trans_le (by exact_mod_cast hle)

/-- At or below it, with the sign bit clear, those up to `m`. -/
theorem CutAt.scaledValue_le_iff (h : CutAt x m) (hsign : signBit p = false) :
    scaledValue p ≤ x ↔ p.toNat ≤ m := by
  rw [← not_lt, h.lt_scaledValue_iff, and_iff_right hsign, not_lt]

theorem isFinite_of_toNat_lt (h : p.toNat < 255 * 2 ^ 23) : isFinite p = true := by
  rw [isFinite, expField_eq, decide_eq_true_eq]
  omega

/-- A finite datum between two bounds is a bit pattern between where they fall. -/
theorem between_iff_toNat {lo hi : Int} {m n : Nat} (hlo : CutAt lo m) (hhi : CutAt hi n)
    (hn : n < 255 * 2 ^ 23) :
    isFinite p = true ∧ lo < scaledValue p ∧ scaledValue p ≤ hi ↔ m < p.toNat ∧ p.toNat ≤ n := by
  constructor
  · rintro ⟨-, hmin, hmax⟩
    obtain ⟨hsign, hm⟩ := hlo.lt_scaledValue_iff.1 hmin
    exact ⟨hm, (hhi.scaledValue_le_iff hsign).1 hmax⟩
  · rintro ⟨hm, hle⟩
    have hsign : signBit p = false := (signBit_eq_false_iff p).2 (by omega)
    exact ⟨isFinite_of_toNat_lt (by omega), hlo.lt_scaledValue_iff.2 ⟨hsign, hm⟩,
      (hhi.scaledValue_le_iff hsign).2 hle⟩

end

/-! ## The valid periods -/

/-- The exact bounds fall after 0x3B30F27B and after 0x3E8A3D70 (R52). -/
theorem validPeriod_iff_toNat (p : Word) : validPeriod p = true ↔ 0x3B30F27C ≤ p.toNat ∧ p.toNat ≤ 0x3E8A3D70 := by
  have hlo : CutAt (27 * 2 ^ 149 / 10000) 0x3B30F27B := by constructor <;> norm_num [magnitudeOf]
  have hhi : CutAt (27 * 2 ^ 149 / 100) 0x3E8A3D70 := by constructor <;> norm_num [magnitudeOf]
  have hwhole : (27 * 2 ^ 149 < scaledValue p * 10000 ↔ 27 * 2 ^ 149 / 10000 < scaledValue p) ∧
      (scaledValue p * 100 ≤ 27 * 2 ^ 149 ↔ scaledValue p ≤ 27 * 2 ^ 149 / 100) := by omega
  rw [validPeriod_iff_scaledValue, hwhole.1, hwhole.2, between_iff_toNat hlo hhi (by norm_num), Nat.lt_iff_add_one_le]

/-- The bounds in binary32 are data themselves (U3). -/
theorem validPeriodWith_f32_iff_toNat (p : Word) :
    validPeriodWith .f32 p = true ↔ 0x3B30F27C < p.toNat ∧ p.toNat ≤ 0x3E8A3D71 := by
  have hcut (q : Word) (hq : signBit q = false) : CutAt (scaledValue q) q.toNat := by
    rw [scaledValue_of_signBit hq]
    exact ⟨le_rfl, by exact_mod_cast magnitudeOf_strictMono (Nat.lt_succ_self _)⟩
  have h := between_iff_toNat (p := p) (hcut Config.periodMinF32 (by decide)) (hcut Config.periodMaxF32 (by decide))
    (by decide)
  rw [← show Config.periodMinF32.toNat = 0x3B30F27C from rfl, ← show Config.periodMaxF32.toNat = 0x3E8A3D71 from rfl,
    ← h]
  simp [validPeriodWith]

/-- Settles O6: the words are where the bounds fall, and each ground of invalidity is outside them. -/
theorem validPeriodIsTheRange : Obligations.ValidPeriodIsTheRange := by
  refine ⟨fun w p e rest => ?_, fun p => ?_, validPeriod_iff_toNat, fun p hp => ?_⟩
  · have hbytes : wordBytes 20 ++ wordBytes 7 ++ wordBytes e ++ wordBytes w ++ wordBytes p ++ rest =
        encodeWith e (.setConfig w p) ++ rest := by
      simp [encodeWith, Frame.bytes, Instr.frame, Instr.payload, Instr.fid, Instr.format, Format.length]
    rw [hbytes, decode_encodeWith]
  · have hpos : (0 : Rat) < 2 ^ 149 := by positivity
    have hval : val p = (scaledValue p : Rat) / 2 ^ 149 := by rw [val]; norm_cast
    rw [validPeriod_iff_scaledValue, hval, div_lt_div_iff₀ (by norm_num) hpos, div_le_div_iff₀ hpos (by norm_num)]
    norm_cast
  · rw [← Bool.not_eq_true, validPeriod_iff_toNat]
    rintro ⟨hmin, hmax⟩
    obtain hinfinite | hsign | hexp := hp
    · simp [isFinite_of_toNat_lt (p := p) (by omega)] at hinfinite
    · simp [(signBit_eq_false_iff p).2 (by omega)] at hsign
    · rw [expField_eq] at hexp
      omega

/-- Settles O7: the two readings' words differ in the first and in the one after the last. -/
theorem boundaryReadingsDifferAtTwoWords : Obligations.BoundaryReadingsDifferAtTwoWords := by
  intro p
  have hexact := validPeriod_iff_toNat p
  have hmin : p = 0x3B30F27C#32 ↔ p.toNat = 0x3B30F27C := ⟨fun h => by rw [h]; rfl, fun h => BitVec.eq_of_toNat_eq h⟩
  have hmax : p = 0x3E8A3D71#32 ↔ p.toNat = 0x3E8A3D71 := ⟨fun h => by rw [h]; rfl, fun h => BitVec.eq_of_toNat_eq h⟩
  rw [validPeriod, Config.boundaryCompare] at hexact
  rw [Bool.eq_iff_iff, validPeriodWith_f32_iff_toNat, hexact, ne_eq, ne_eq, hmin, hmax]
  omega

end Sys2Proof.Machine
end

section
/-! PROOFS. The rounding of the status reply: rounding a finite datum's own value gives its bit pattern back, since
the units of the result are the units of the datum. -/

namespace Sys2Proof.Machine

/-! ## The greatest power of two below a quotient -/

section
variable {n d : Nat}

theorem powerAtMost_iff (hd : 0 < d) (e : Int) : powerAtMost e n d = true ↔ (2 : Rat) ^ e ≤ n / d := by
  have hdQ : (0 : Rat) < d := by exact_mod_cast hd
  obtain he | he := le_or_gt 0 e
  · obtain ⟨k, rfl⟩ := Int.eq_ofNat_of_zero_le he
    rw [powerAtMost, if_pos he, decide_eq_true_eq, le_div_iff₀ hdQ, mul_comm]
    norm_cast
  · obtain ⟨k, hk⟩ := Int.eq_ofNat_of_zero_le (by omega : 0 ≤ -e)
    obtain rfl : e = -k := by omega
    rw [powerAtMost, if_neg (by omega), decide_eq_true_eq, neg_neg, Int.toNat_natCast, le_div_iff₀ hdQ, zpow_neg,
      inv_mul_le_iff₀ (by positivity), mul_comm]
    norm_cast

/-- `floorLog2` is the greatest exponent whose power is at most the quotient. -/
theorem floorLog2_spec (hn : 0 < n) (hd : 0 < d) :
    (2 : Rat) ^ floorLog2 n d ≤ n / d ∧ (n / d : Rat) < 2 ^ (floorLog2 n d + 1) := by
  have hdQ : (0 : Rat) < d := by exact_mod_cast hd
  have hnlo : (2 : Rat) ^ n.log2 ≤ n := by exact_mod_cast Nat.log2_self_le hn.ne'
  have hnhi : (n : Rat) < 2 ^ (n.log2 + 1) := by exact_mod_cast Nat.lt_log2_self
  have hdlo : (2 : Rat) ^ d.log2 ≤ d := by exact_mod_cast Nat.log2_self_le hd.ne'
  have hdhi : (d : Rat) < 2 ^ (d.log2 + 1) := by exact_mod_cast Nat.lt_log2_self
  have hlo : (2 : Rat) ^ ((n.log2 : Int) - d.log2 - 1) ≤ n / d := by
    rw [le_div_iff₀ hdQ]
    calc (2 : Rat) ^ ((n.log2 : Int) - d.log2 - 1) * d
        ≤ 2 ^ ((n.log2 : Int) - d.log2 - 1) * 2 ^ (d.log2 + 1) := by gcongr
      _ = 2 ^ n.log2 := by
        rw [← zpow_natCast, ← zpow_natCast, ← zpow_add₀ two_ne_zero]
        congr 1
        push_cast
        ring
      _ ≤ n := hnlo
  have hhi : (n / d : Rat) < 2 ^ ((n.log2 : Int) - d.log2 + 1) := by
    rw [div_lt_iff₀ hdQ]
    calc (n : Rat) < 2 ^ (n.log2 + 1) := hnhi
      _ = 2 ^ ((n.log2 : Int) - d.log2 + 1) * 2 ^ d.log2 := by
        rw [← zpow_natCast, ← zpow_natCast, ← zpow_add₀ two_ne_zero]
        congr 1
        push_cast
        ring
      _ ≤ 2 ^ ((n.log2 : Int) - d.log2 + 1) * d := by gcongr
  rw [floorLog2]
  split_ifs with h
  · exact ⟨(powerAtMost_iff hd _).1 h, hhi⟩
  · rw [powerAtMost_iff hd, not_le] at h
    exact ⟨hlo, by simpa using h⟩

theorem le_floorLog2_iff (hn : 0 < n) (hd : 0 < d) (e : Int) :
    e ≤ floorLog2 n d ↔ (2 : Rat) ^ e ≤ n / d := by
  obtain ⟨hlo, hhi⟩ := floorLog2_spec hn hd
  refine ⟨fun h => (zpow_le_zpow_right₀ one_le_two h).trans hlo, fun h => ?_⟩
  have := (zpow_lt_zpow_iff_right₀ (one_lt_two (α := Rat))).1 (h.trans_lt hhi)
  omega

end

/-! ## Rounding a representable quotient -/

/-- A whole quotient is not rounded. -/
theorem divNearestEven_mul (m : Nat) {d : Nat} (hd : 0 < d) : divNearestEven (m * d) d = m := by
  rw [divNearestEven, Nat.mul_div_cancel m hd, Nat.mul_mod_left]
  exact if_neg (by omega)

/-- A quotient that is `m` units of 2^(E - 149), with `m` a significand of that exponent, rounds to the datum
with that exponent and significand. -/
theorem roundMagnitude_eq {n d m E : Nat} (hd : 0 < d) (hm : 0 < m) (hlt : m < 2 ^ 24)
    (hnormal : 2 ^ 23 ≤ m ∨ E = 0) (hx : n * 2 ^ 149 = m * 2 ^ E * d) (hmax : E * 2 ^ 23 + m ≤ 0x7F800000) :
    roundMagnitude n d = E * 2 ^ 23 + m := by
  have hn : 0 < n := by
    by_contra h
    obtain rfl : n = 0 := by omega
    simp [hm.ne', hd.ne'] at hx
  have hdQ : (0 : Rat) < d := by exact_mod_cast hd
  have hquotient : (n / d : Rat) = m * 2 ^ ((E : Int) - 149) := by
    have hxQ : (n : Rat) * 2 ^ 149 = m * 2 ^ E * d := by exact_mod_cast hx
    rw [div_eq_iff hdQ.ne', zpow_sub₀ two_ne_zero]
    field_simp
    exact_mod_cast hxQ
  have hpow (k : Nat) : (2 : Rat) ^ k * 2 ^ ((E : Int) - 149) = 2 ^ ((E : Int) + k - 149) := by
    rw [← zpow_natCast, ← zpow_add₀ two_ne_zero]
    congr 1
    ring
  have hhigh : floorLog2 n d ≤ (E : Int) - 126 := by
    by_contra h
    have hle := (le_floorLog2_iff hn hd ((E : Int) - 125)).1 (by omega)
    have hmQ : (m : Rat) < 2 ^ 24 := by exact_mod_cast hlt
    have : (2 : Rat) ^ ((E : Int) - 125) = 2 ^ 24 * 2 ^ ((E : Int) - 149) := by rw [hpow]; congr 1; push_cast; ring
    rw [hquotient, this] at hle
    exact absurd (le_of_mul_le_mul_right hle (by positivity)) (not_le.2 hmQ)
  have hlow (hm : 2 ^ 23 ≤ m) : (E : Int) - 126 ≤ floorLog2 n d := by
    have hmQ : (2 ^ 23 : Rat) ≤ m := by exact_mod_cast hm
    have : (2 : Rat) ^ ((E : Int) - 126) = 2 ^ 23 * 2 ^ ((E : Int) - 149) := by rw [hpow]; congr 1; push_cast; ring
    rw [le_floorLog2_iff hn hd, hquotient, this]
    gcongr
  have hunit : max (floorLog2 n d - 23) (-149) = (E : Int) - 149 := by
    obtain hm | hE := hnormal
    · have := hlow hm
      omega
    · omega
  have hround : (if (0 : Int) ≤ (E : Int) - 149 then divNearestEven n (d * 2 ^ ((E : Int) - 149).toNat)
      else divNearestEven (n * 2 ^ (-((E : Int) - 149)).toNat) d) = m := by
    obtain hE | hE := le_or_gt 149 E
    · obtain ⟨k, rfl⟩ := Nat.exists_eq_add_of_le hE
      have hk : (((149 + k : Nat) : Int) - 149).toNat = k := by omega
      have hwhole : n = m * (d * 2 ^ k) := by
        refine Nat.eq_of_mul_eq_mul_right (by positivity : 0 < 2 ^ 149) ?_
        rw [hx, pow_add]
        ring
      rw [if_pos (by omega), hk, hwhole]
      exact divNearestEven_mul m (by positivity)
    · obtain ⟨k, hk⟩ := Nat.exists_eq_add_of_lt hE
      have hk' : (-((E : Int) - 149)).toNat = k + 1 := by omega
      have hwhole : n * 2 ^ (k + 1) = m * d := by
        refine Nat.eq_of_mul_eq_mul_right (by positivity : 0 < 2 ^ E) ?_
        rw [mul_assoc, ← pow_add, show k + 1 + E = 149 by omega, hx]
        ring
      rw [if_neg (by omega), hk', hwhole]
      exact divNearestEven_mul m hd
  have hexponent : ((E : Int) - 149 + 149).toNat = E := by omega
  rw [roundMagnitude, if_neg hn.ne']
  simp only [hunit, hround, hexponent]
  exact min_eq_left hmax

/-! ## A datum's own value -/

section
variable {w : Word}

/-- The exact value of a datum as a reduced fraction. -/
theorem val_num_mul (w : Word) : (val w).num * 2 ^ 149 = scaledValue w * (val w).den := by
  have hden : ((val w).den : Rat) ≠ 0 := by exact_mod_cast (val w).den_nz
  have hval : ((val w).num : Rat) / (val w).den = scaledValue w / 2 ^ 149 := by
    rw [Rat.num_div_den, val]
    norm_cast
  rw [div_eq_div_iff hden (by positivity)] at hval
  exact_mod_cast hval

theorem val_natAbs_mul (w : Word) : (val w).num.natAbs * 2 ^ 149 = magnitude w * (val w).den := by
  have h := congrArg Int.natAbs (val_num_mul w)
  have habs : (scaledValue w).natAbs = magnitude w := by
    rw [scaledValue]
    split_ifs <;> simp
  simpa [Int.natAbs_mul, habs] using h

theorem val_num_neg_iff (w : Word) : (val w).num < 0 ↔ scaledValue w < 0 := by
  rw [Rat.num_neg, val, div_lt_iff₀ (by norm_num), zero_mul]
  norm_cast

theorem scaledValue_neg_iff (w : Word) : scaledValue w < 0 ↔ signBit w = true ∧ 0 < magnitude w := by
  rw [scaledValue]
  split_ifs with h <;> simp [h]

theorem magnitude_pos_iff (w : Word) : 0 < magnitude w ↔ 0 < significand w := by
  rw [magnitude_eq, Nat.mul_pos_iff_of_pos_right (by positivity)]

/-- A datum whose significand is zero is a zero. -/
theorem toNat_mod_eq_zero_iff (w : Word) : w.toNat % 2 ^ 31 = 0 ↔ significand w = 0 := by
  have hfields := toNat_mod_eq w
  obtain ⟨-, hnormal⟩ := significand_bounds w
  omega

/-- The magnitude of a finite datum is rounded to the datum's exponent and significand. -/
theorem roundMagnitude_val (hfinite : isFinite w = true) :
    roundMagnitude (val w).num.natAbs (val w).den = w.toNat % 2 ^ 31 := by
  have hmul := val_natAbs_mul w
  obtain hzero | hpos := Nat.eq_zero_or_pos (significand w)
  · rw [magnitude_eq, hzero, zero_mul, zero_mul] at hmul
    have hnum : (val w).num.natAbs = 0 := (Nat.mul_eq_zero.1 hmul).resolve_right (by norm_num)
    rw [hnum, roundMagnitude, if_pos rfl, (toNat_mod_eq_zero_iff w).2 hzero]
  · obtain ⟨hlt, hnormal⟩ := significand_bounds w
    have hexp : expField w < 255 := by simpa [isFinite] using hfinite
    rw [magnitude_eq] at hmul
    rw [toNat_mod_eq]
    exact roundMagnitude_eq (val w).den_pos hpos hlt hnormal hmul (by omega)

/-- Rounding a datum's value gives the datum back; a zero is +0 (log 24). -/
theorem roundNearestEven_val (hfinite : isFinite w = true) (hzero : w ≠ 0x80000000#32) :
    roundNearestEven (val w) = w := by
  have hlt := w.isLt
  have hnegZero : w.toNat ≠ 2 ^ 31 := fun h => hzero (BitVec.eq_of_toNat_eq h)
  have hsign : (val w).num < 0 ↔ 2 ^ 31 ≤ w.toNat := by
    rw [val_num_neg_iff, scaledValue_neg_iff, signBit_eq, decide_eq_true_eq, magnitude_pos_iff,
      Nat.pos_iff_ne_zero, ne_eq, ← toNat_mod_eq_zero_iff]
    omega
  refine BitVec.eq_of_toNat_eq ?_
  simp only [roundNearestEven, roundMagnitude_val hfinite, hsign, BitVec.toNat_ofNat]
  split_ifs <;> omega

end

/-- Settles O26: a datum's value is rounded to it, so it has an exact encoding, which is returned. -/
theorem roundingKeepsRepresentableQuotients : Obligations.RoundingKeepsRepresentableQuotients := by
  intro w hfinite hzero
  simp [roundStatus, exactEncoding, roundNearestEven_val hfinite hzero, hfinite]

/-- Settles O27: closed quotients of whole numbers, which the kernel evaluates. -/
theorem defaultRoundingGivesTheExamples : Obligations.DefaultRoundingGivesTheExamples := by
  unfold Obligations.DefaultRoundingGivesTheExamples
  decide +kernel

end Sys2Proof.Machine
end
